-- ==== Sys2Proof/Word.lean ====
section
/-! DEFINITION. The bit widths of CRCCONV (spec R7, R11, R50, R70). -/

namespace Sys2Proof

/-- A byte register, a bus byte, a command code (R20, R71). -/
abbrev Byte := BitVec 8

/-- A raw count, TEMP or HUM (R7, R27, R28). -/
abbrev Half := BitVec 16

/-- A serial number (R29). -/
abbrev Serial := BitVec 32

/-- An offset in the 32-byte register window (R50). -/
abbrev Offset := BitVec 5

/-- A transaction word `W[13] ∥ OFF[12:8] ∥ DATA[7:0]` (R70). -/
abbrev TxnWord := BitVec 14

end Sys2Proof
end

