-- ==== Sys2Proof/Syntax.lean ====
section
/-! DEFINITION. The instructions: one constructor per row of spec/opcode_table.json. -/

namespace Sys2Proof

/-- The rows of opcode_table.json. `rd` and `wr` are the bus transactions (format TXN14, R70);
the others are the commands, each the byte written to CMD (format CMD8, R71), without fields. -/
inductive Instr where
  /-- RD, R52. `data` is the word's DATA field, which the block ignores on a read (R70, log 13). -/
  | rd (off : Offset) (data : Byte)
  /-- WR, R53. -/
  | wr (off : Offset) (data : Byte)
  /-- CHECK 0x01, R105. -/
  | check
  /-- CLEAR 0x02, R170. -/
  | clear
  /-- HEAT_20_SHORT 0x15, R148. -/
  | heat20Short
  /-- HEAT_20_LONG 0x1E, R149. -/
  | heat20Long
  /-- HEAT_110_SHORT 0x24, R150. -/
  | heat110Short
  /-- HEAT_110_LONG 0x2F, R151. -/
  | heat110Long
  /-- HEAT_200_SHORT 0x32, R152. -/
  | heat200Short
  /-- HEAT_200_LONG 0x39, R153. -/
  | heat200Long
  /-- READ_SN 0x89, R120. -/
  | readSn
  /-- SOFT_RESET 0x94, illegal in the block, R76 and R171. -/
  | softReset
  /-- MEAS_LOW 0xE0, R143. -/
  | measLow
  /-- MEAS_MED 0xF6, R144. -/
  | measMed
  /-- MEAS_HIGH 0xFD, R145. -/
  | measHigh
  /-- ILLEGAL, the default row: every CMD value no other row matches, R78 and R171. -/
  | illegal (code : Byte)
  deriving DecidableEq, Repr

end Sys2Proof
end

