-- ==== Sys2Proof/WellFormed.lean ====
section
/-! DEFINITION. Which instructions are well formed: those that some transaction word or command byte means. -/

namespace Sys2Proof

/-- The codes that a named CMD8 row of opcode_table.json matches (R72). -/
def namedCodes : List Byte :=
  [0x01, 0x02, 0x15, 0x1E, 0x24, 0x2F, 0x32, 0x39, 0x89, 0x94, 0xE0, 0xF6, 0xFD]

/-- The ILLEGAL row is the default, lowest in priority: its code is none that a named row matches
(R72, R78). Every other instruction is well formed with every operand. -/
def Instr.wellFormed : Instr → Bool
  | .illegal code => !namedCodes.contains code
  | .rd _ _ | .wr _ _ => true
  | .check | .clear | .readSn | .softReset => true
  | .measLow | .measMed | .measHigh => true
  | .heat20Short | .heat20Long | .heat110Short | .heat110Long | .heat200Short | .heat200Long => true

abbrev Instr.WellFormed (i : Instr) : Prop := i.wellFormed = true

end Sys2Proof
end

