-- ==== Sys2Proof/Decode.lean ====
section
/-! DEFINITION. Decoding and encoding of transaction words (spec R70) and command bytes (R71, R72). -/

namespace Sys2Proof

/-- Why bits are no instruction of the block. -/
inductive DecodeError where
  /-- A command is one byte (R71), and the bits do not fit one. -/
  | notACommandByte
  /-- A transaction is one 14-bit word (R70), and the bits do not fit one. -/
  | notATransactionWord
  /-- The only formats are the transaction word and the command byte (R82). -/
  | noSuchFormat
  deriving DecidableEq, Repr

/-- The rows of R72 that match one code each, on all 8 bits. -/
def commandTable : List (Byte × Instr) :=
  [(0x01, .check), (0x02, .clear),
   (0x15, .heat20Short), (0x1E, .heat20Long), (0x24, .heat110Short),
   (0x2F, .heat110Long), (0x32, .heat200Short), (0x39, .heat200Long),
   (0x89, .readSn), (0x94, .softReset),
   (0xE0, .measLow), (0xF6, .measMed), (0xFD, .measHigh)]

/-- The command a byte written to CMD selects; any other value is ILLEGAL (R72, R78). -/
def decodeCommand (code : Byte) : Instr :=
  (commandTable.lookup code).getD (.illegal code)

/-- The fields of a transaction word: W is bit 13, OFF bits 12:8, DATA bits 7:0 (R70). -/
def decodeTxn (w : TxnWord) : Instr :=
  let off := w.extractLsb' 8 5
  let data := w.extractLsb' 0 8
  if w.getLsbD 13 then .wr off data else .rd off data

/-- The instruction that `nbits` bits with value `w` mean: 8 bits are a command byte, 14 bits a
transaction word, and 16 bits a transaction word in whole bytes, its two high bits 0 (log 7). -/
def decode (nbits w : Nat) : Except DecodeError Instr :=
  if nbits = 8 then
    if w < 2 ^ 8 then .ok (decodeCommand (BitVec.ofNat 8 w)) else .error .notACommandByte
  else if nbits = 14 ∨ nbits = 16 then
    if w < 2 ^ 14 then .ok (decodeTxn (BitVec.ofNat 14 w)) else .error .notATransactionWord
  else .error .noSuchFormat

/-- `decode` on an opcode-table row's bits. -/
def decodeTableWord (nbits w : Nat) : Option Instr :=
  match decode nbits w with
  | .ok i => some i
  | .error _ => none

/-- The byte that writing to CMD runs this command with (R72); the bus transactions have none. -/
def commandCode : Instr → Option Byte
  | .rd _ _ => none
  | .wr _ _ => none
  | .check => some 0x01
  | .clear => some 0x02
  | .heat20Short => some 0x15
  | .heat20Long => some 0x1E
  | .heat110Short => some 0x24
  | .heat110Long => some 0x2F
  | .heat200Short => some 0x32
  | .heat200Long => some 0x39
  | .readSn => some 0x89
  | .softReset => some 0x94
  | .measLow => some 0xE0
  | .measMed => some 0xF6
  | .measHigh => some 0xFD
  | .illegal code => some code

/-- A transaction as a number: `(W << 13) | (OFF << 8) | DATA` (R70). -/
def txnNumber (write : Bool) (off : Offset) (data : Byte) : Nat :=
  (write.toNat <<< 13) ||| (off.toNat <<< 8) ||| data.toNat

/-- A transaction word from its three fields, W in the high bit (R70). -/
def txnWord (write : Bool) (off : Offset) (data : Byte) : TxnWord :=
  BitVec.ofBool write ++ off ++ data

/-- The bits of an instruction and how many they are: 14 for a transaction, 8 for a command. -/
def encode (i : Instr) : Nat × Nat :=
  match i with
  | .rd off data => (14, txnNumber false off data)
  | .wr off data => (14, txnNumber true off data)
  | i => (8, ((commandCode i).getD 0).toNat)

end Sys2Proof
end

