-- ==== Sys2Proof/Machine/Convert.lean ====
section
/-! DEFINITION. The fixed-point conversions (spec R140, R141, R147, R154): exact integer arithmetic, narrowed once at the end. -/

namespace Sys2Proof.Machine

/-- `s16(v)`, the 16-bit two's-complement encoding of an integer (R11). On 0 to 65535 it is also
`zext_16`, and on any integer `(v mod 65536)[15:0]`. -/
def s16 (v : Int) : Half := BitVec.ofInt 16 v

/-- Temperature in tenths of a degree Celsius; the shift binds first (R140, C2). -/
def convT (raw : Half) : Int := ((raw.toNat * 1750) >>> 16 : Nat) - 450

/-- The linear humidity before the clamp, in tenths of a percent (R141). -/
def humLin (raw : Half) : Int := ((raw.toNat * 1250) >>> 16 : Nat) - 60

/-- The clamped humidity (R141). -/
def convH (raw : Half) : Int := min 1000 (max 0 (humLin raw))

/-- The HUM result of a heater command under HEATER_CLAMP = LEGACY (R147). `keepOld` is the draw,
which matters only where `humLin` is out of range. -/
def legacyHum (raw old : Half) (keepOld : Bool) : Half :=
  let h := humLin raw
  if 0 ≤ h ∧ h ≤ 1000 then s16 h
  else if keepOld then old
  else s16 h

end Sys2Proof.Machine
end

