-- ==== Sys2Proof/Machine/Crc.lean ====
section
/-! DEFINITION. The CRC-8 function (spec R101 to R103). -/

namespace Sys2Proof.Machine

/-- CRC_POLY (R7). -/
def crcPoly : Byte := 0x31

/-- CRC_INIT (R7). -/
def crcInit : Byte := 0xFF

/-- One turn of the loop of R101: shift left, and XOR the polynomial if bit 7 was 1 before. -/
def crcBit (c : Byte) : Byte :=
  if c.getLsbD 7 then (c <<< 1) ^^^ crcPoly else c <<< 1

/-- `n` turns of the loop of R101. -/
def crcLoop : Nat → Byte → Byte
  | 0, c => c
  | n + 1, c => crcLoop n (crcBit c)

/-- The CRC step for one data byte (R101). -/
def crc8Step (c b : Byte) : Byte := crcLoop 8 (c ^^^ b)

/-- The CRC of two bytes, b0 first, with no final XOR and no reflection (R102). -/
def crc8 (b0 b1 : Byte) : Byte := crc8Step (crc8Step crcInit b0) b1

/-- The half check (R103). -/
def halfOk (d0 d1 c : Byte) : Bool := crc8 d0 d1 == c

end Sys2Proof.Machine
end

