-- ==== Sys2Proof/Config.lean ====
section
/-! DEFINITION. The configuration of CRCCONV (spec R8, R9, R14) and the free value of the LEGACY draw (R147). -/

namespace Sys2Proof

/-- Parameter HEATER_CLAMP (R8). -/
inductive HeaterClamp where
  | fixed
  | legacy
  deriving DecidableEq, Repr

/-- The configuration {HEATER_CLAMP, CRCCONV_BASE}, fixed before reset (R14, R232). -/
structure Config where
  heaterClamp : HeaterClamp
  /-- CRCCONV_BASE, the platform address of the register window (R9); no step reads it. -/
  base : Nat
  deriving DecidableEq, Repr

/-- The configuration that `State.reset` carries: HEATER_CLAMP has its default FIXED (R8).
DESIGN CHOICE, unsafe (log 5): R9 leaves CRCCONV_BASE OPEN and 0 stands in for it. -/
def Config.default : Config where
  heaterClamp := .fixed
  base := 0

/-- The draws of R147, a free value: draw `n` says whether HUM keeps its old value (`true`) or
takes the unclamped linear value (`false`). It has no body, so no proof can know a draw (log 4). -/
opaque Config.legacyDraw : Nat → Bool

end Sys2Proof
end

