-- ==== Sys2Proof/Machine/State.lean ====
section
/-! DEFINITION. The state of the machine: the register record of spec R34, the configuration (R14), and the model's own fields for the bus (log 1 to 4). -/

namespace Sys2Proof.Machine

/-- FRAME0 to FRAME5 (R21). -/
structure Frame where
  f0 : Byte
  f1 : Byte
  f2 : Byte
  f3 : Byte
  f4 : Byte
  f5 : Byte
  deriving DecidableEq, Repr

/-- The complete state of the block (R34). -/
structure Block where
  frame : Frame
  /-- LAST_CMD, the last value written to CMD (R23). -/
  lastCmd : Byte
  /-- STATUS (R25). -/
  status : Byte
  /-- TEMP, 16-bit two's complement (R27). -/
  temp : Half
  /-- HUM, 16-bit unsigned (R28). -/
  hum : Half
  /-- SN (R29). -/
  sn : Serial
  /-- CRC0 (R30). -/
  crc0 : Byte
  /-- CRC1 (R30). -/
  crc1 : Byte
  deriving DecidableEq, Repr

/-- The causes an error is recorded under (R200). -/
inductive Cause where
  /-- A CRC half does not verify; `e0` and `e1` say which (R202). -/
  | integrityFailure (e0 e1 : Bool)
  /-- A CMD value selects no command (R204). -/
  | illegalCommand (code : Byte)
  deriving DecidableEq, Repr

/-- What can reach the block from outside, one step each (R14, R230, R231). -/
inductive Request where
  /-- A bus access of `bytes` bytes with the fields of `word` (R70); only one byte is a transaction
  of the block (R58). -/
  | access (bytes : Nat) (word : TxnWord)
  /-- The reset input changes to this level; `true` is asserted (R230, R231, R239). -/
  | resetLine (level : Bool)
  deriving DecidableEq, Repr

/-- The machine's state. -/
structure State where
  /-- The registers of R34. -/
  block : Block
  /-- The configuration, which no step changes (R14, log 5). -/
  cfg : Config
  /-- The model's own: how many draws of R147 were taken (log 4). -/
  draws : Nat
  /-- The model's own: what the bus master and the platform have yet to do, oldest first (log 1). -/
  pending : List Request
  /-- The model's own: the level of the reset input (log 3). -/
  rst : Bool
  /-- The model's own: the byte that the most recent transaction returned to the bus master, none
  after a write or a reset (log 2). -/
  rdata : Option Byte
  deriving DecidableEq, Repr

/-- No transaction faults and none is stuck (R14), so there is no way to fault (log 10). -/
inductive Fault where
  deriving DecidableEq, Repr

/-- What the machine turns away. None of these is an instruction's own outcome. -/
inductive Refusal where
  /-- An instruction without a meaning; no arm of `exec` answers it. Safe. -/
  | notModelled (mnemonic : String)
  /-- A transaction while reset is asserted: "The model refuses such a transaction" (D29, R231).
  Raised by `serve`. Safe. -/
  | transactionDuringReset
  /-- An access that is not one byte wide: "not transactions of this block. A model refuses them"
  (R58). Raised by `serve`. Safe. -/
  | notAByteAccess
  deriving DecidableEq, Repr

/-- The outcome of an instruction or of a step. -/
abbrev Result := Host.Outcome State Fault Refusal

/-- The reset value of every register (R36). -/
def Block.reset : Block where
  frame := ⟨0, 0, 0, 0, 0, 0⟩
  lastCmd := 0
  status := 0
  temp := 0
  hum := 0
  sn := 0
  crc0 := 0
  crc1 := 0

/-- The machine right after reset, for a configuration (R230, R232). -/
def State.resetWith (cfg : Config) : State where
  block := Block.reset
  cfg := cfg
  draws := 0
  pending := []
  rst := false
  rdata := none

/-- The machine right after reset: every register zero (R36), HEATER_CLAMP FIXED (R8), no request
waiting. -/
def State.reset : State := State.resetWith Config.default

end Sys2Proof.Machine
end

