-- ==== Sys2Proof/Machine/Flags.lean ====
section
/-! DEFINITION. STATUS: its fields and the values that outcomes give it (spec R25, R26, R200). -/

namespace Sys2Proof.Machine

/-- STATUS.OK, bit 0 (R25). -/
def statusOk (st : Byte) : Bool := st.getLsbD 0

/-- STATUS.CRC0_ERR, bit 1 (R25). -/
def statusCrc0Err (st : Byte) : Bool := st.getLsbD 1

/-- STATUS.CRC1_ERR, bit 2 (R25). -/
def statusCrc1Err (st : Byte) : Bool := st.getLsbD 2

/-- STATUS.CMD_ERR, bit 3 (R25). -/
def statusCmdErr (st : Byte) : Bool := st.getLsbD 3

/-- STATUS after a frame command whose halves both verify (R104). -/
def okStatus : Byte := 0x01

/-- STATUS after a cause is raised: one bit per cause, OK = 0 (R200, R201). -/
def causeStatus : Cause → Byte
  | .integrityFailure e0 e1 => (if e0 then 0x02 else 0x00) ||| (if e1 then 0x04 else 0x00)
  | .illegalCommand _ => 0x08

end Sys2Proof.Machine
end

