-- ==== Sys2Proof/Machine/Operands.lean ====
section
/-! DEFINITION. The operands of the commands, assembled from FRAME (spec R54, R79, R80), and the platform addresses of the window (R9, R51). -/

namespace Sys2Proof.Machine

/-- raw_t = FRAME0 ∥ FRAME1 (R79). -/
def rawT (f : Frame) : Half := f.f0 ++ f.f1

/-- crc_t = FRAME2 (R79). -/
def crcT (f : Frame) : Byte := f.f2

/-- raw_h = FRAME3 ∥ FRAME4 (R79). -/
def rawH (f : Frame) : Half := f.f3 ++ f.f4

/-- crc_h = FRAME5 (R79). -/
def crcH (f : Frame) : Byte := f.f5

/-- sn_val = FRAME0 ∥ FRAME1 ∥ FRAME3 ∥ FRAME4 (R80). -/
def snVal (f : Frame) : Serial := f.f0 ++ f.f1 ++ f.f3 ++ f.f4

/-- The platform address of an offset of the window (R9). -/
def windowAddress (cfg : Config) (off : Offset) : Nat := cfg.base + off.toNat

/-- The offset of a platform address, if it lies in the 32-byte window (R9, R50). No step uses it:
a transaction reaches the block already reduced to an offset (R51, log 15). -/
def windowOffset (cfg : Config) (addr : Nat) : Option Offset :=
  if cfg.base ≤ addr ∧ addr < cfg.base + 32 then some (BitVec.ofNat 5 (addr - cfg.base)) else none

end Sys2Proof.Machine
end

