-- ==== Sys2Proof/Machine/Ops.lean ====
section
/-! DEFINITION. The shared operations: the register window (spec R52, R53), raising a cause (R201), FrameCheck (R104), TH(mode) (R142), the illegal-command action (R171), CLEAR (R170) and Reset (R230). -/

namespace Sys2Proof.Machine

/-! ### The register window -/

/-- The byte at an offset of the window (R52), results high byte first (R55). -/
def memRead (b : Block) (off : Offset) : Byte :=
  match off.toNat with
  | 0x00 => b.frame.f0
  | 0x01 => b.frame.f1
  | 0x02 => b.frame.f2
  | 0x03 => b.frame.f3
  | 0x04 => b.frame.f4
  | 0x05 => b.frame.f5
  | 0x06 => b.lastCmd
  | 0x07 => b.status
  | 0x08 => b.temp.extractLsb' 8 8
  | 0x09 => b.temp.extractLsb' 0 8
  | 0x0A => b.hum.extractLsb' 8 8
  | 0x0B => b.hum.extractLsb' 0 8
  | 0x0C => b.sn.extractLsb' 24 8
  | 0x0D => b.sn.extractLsb' 16 8
  | 0x0E => b.sn.extractLsb' 8 8
  | 0x0F => b.sn.extractLsb' 0 8
  | 0x10 => b.crc0
  | 0x11 => b.crc1
  | _ => 0x00

/-- A write to FRAME(off), offsets 0x00 to 0x05; every other offset is read-only or reserved and the
write is ignored (R30, R31, R53). CMD is not written here: see `execWr`. -/
def writeFrame (off : Offset) (v : Byte) (f : Frame) : Frame :=
  match off.toNat with
  | 0x00 => { f with f0 := v }
  | 0x01 => { f with f1 := v }
  | 0x02 => { f with f2 := v }
  | 0x03 => { f with f3 := v }
  | 0x04 => { f with f4 := v }
  | 0x05 => { f with f5 := v }
  | _ => f

/-- A bus write to an offset other than CMD. -/
def busWrite (off : Offset) (v : Byte) (s : State) : State :=
  { s with block := { s.block with frame := writeFrame off v s.block.frame }, rdata := none }

/-- A bus read: the byte goes to the bus master, and no register changes (R52, log 2). -/
def busRead (off : Offset) (s : State) : State :=
  { s with rdata := some (memRead s.block off) }

/-! ### Commands -/

/-- What a CMD write does before its command runs: LAST_CMD takes the code (R23). A write returns
no byte. -/
def beginCommand (code : Byte) (s : State) : State :=
  { s with block := { s.block with lastCmd := code }, rdata := none }

/-- `raise` (R201): STATUS takes the cause's value; what was written before it stays. There is no
trap, no saved state and no return (R208, R209); the command ends here. -/
def raise (c : Cause) (b : Block) : Block :=
  { b with status := causeStatus c }

/-- FrameCheck (R104): `.ok` where both halves verify and the command goes on, `.error` with the
block as the raised IntegrityFailure leaves it. CRC0 and CRC1 are written either way. -/
def frameCheck (b : Block) : Except Block Block :=
  let c0 := crc8 b.frame.f0 b.frame.f1
  let c1 := crc8 b.frame.f3 b.frame.f4
  let e0 := !halfOk b.frame.f0 b.frame.f1 (crcT b.frame)
  let e1 := !halfOk b.frame.f3 b.frame.f4 (crcH b.frame)
  let b := { b with crc0 := c0, crc1 := c1 }
  if e0 || e1 then .error (raise (.integrityFailure e0 e1) b)
  else .ok { b with status := okStatus }

/-- A frame command: FrameCheck, and `k` only where it passes (R104, R201). -/
def afterFrameCheck (k : State → State) (s : State) : State :=
  match frameCheck s.block with
  | .error b => { s with block := b }
  | .ok b => k { s with block := b }

/-- The two modes of TH(mode) (R142). -/
inductive ThMode where
  | normal
  | heater
  deriving DecidableEq, Repr

/-- The results of TH(mode) after FrameCheck passes: TEMP (R140) and HUM, clamped (R141) or, for a
heater command under HEATER_CLAMP = LEGACY, drawn (R147). Each such command takes one draw (log 4). -/
def thResults (m : ThMode) (s : State) : State :=
  let b := { s.block with temp := s16 (convT (rawT s.block.frame)) }
  match m, s.cfg.heaterClamp with
  | .heater, .legacy =>
    { s with
      block := { b with hum := legacyHum (rawH b.frame) b.hum (Config.legacyDraw s.draws) }
      draws := s.draws + 1 }
  | _, _ => { s with block := { b with hum := s16 (convH (rawH b.frame)) } }

/-- TH(mode) (R142). -/
def th (m : ThMode) (s : State) : State := afterFrameCheck (thResults m) s

/-- The result of READ_SN after FrameCheck passes (R120). -/
def snResult (s : State) : State :=
  { s with block := { s.block with sn := snVal s.block.frame } }

/-- ILLEGAL(v), the illegal-command action (R171, R204). -/
def illegalAction (code : Byte) (s : State) : State :=
  { s with block := raise (.illegalCommand code) s.block }

/-- CLEAR() (R170): every register but LAST_CMD to its reset value. -/
def clearRegisters (s : State) : State :=
  { s with
    block :=
      { s.block with
        frame := ⟨0x00, 0x00, 0x00, 0x00, 0x00, 0x00⟩
        status := 0x00
        temp := 0x0000
        hum := 0x0000
        sn := 0x00000000
        crc0 := 0x00
        crc1 := 0x00 } }

/-- Reset() (R230): every register of R34 to its reset value. The configuration is not affected; the
requests still waiting and the count of draws are the model's own and stay (log 3). -/
def resetAction (s : State) : State :=
  { s with
    block :=
      { frame := ⟨0x00, 0x00, 0x00, 0x00, 0x00, 0x00⟩
        lastCmd := 0x00
        status := 0x00
        temp := 0x0000
        hum := 0x0000
        sn := 0x00000000
        crc0 := 0x00
        crc1 := 0x00 }
    rdata := none }

end Sys2Proof.Machine
end

