-- ==== Sys2Proof/Machine/Control.lean ====
section
/-! DEFINITION. CLEAR (spec R170) and the codes that select no command (R171). -/

namespace Sys2Proof.Machine

/-- CLEAR, code 0x02 (R170). -/
def execClear (s : State) : Result := .next (clearRegisters (beginCommand 0x02 s))

/-- SOFT_RESET, code 0x94: the sensor's opcode, illegal in the block (R76, R171). -/
def execSoftReset (s : State) : Result := .next (illegalAction 0x94 (beginCommand 0x94 s))

/-- ILLEGAL, every code that no named row matches (R78, R171; for a code that a named row matches, log 14). -/
def execIllegal (code : Byte) (s : State) : Result :=
  .next (illegalAction code (beginCommand code s))

end Sys2Proof.Machine
end

