-- ==== Sys2Proof/Machine/FrameCommands.lean ====
section
/-! DEFINITION. The frame commands without a conversion: CHECK (spec R105) and READ_SN (R120). -/

namespace Sys2Proof.Machine

/-- CHECK, code 0x01 (R105). -/
def execCheck (s : State) : Result := .next (afterFrameCheck id (beginCommand 0x01 s))

/-- READ_SN, code 0x89 (R120). -/
def execReadSn (s : State) : Result := .next (afterFrameCheck snResult (beginCommand 0x89 s))

end Sys2Proof.Machine
end

