-- ==== Sys2Proof/Machine/Measure.lean ====
section
/-! DEFINITION. The temperature/humidity commands: three normal (spec R143 to R145) and six heater (R148 to R153). -/

namespace Sys2Proof.Machine

/-- MEAS_LOW, code 0xE0 (R143). -/
def execMeasLow (s : State) : Result := .next (th .normal (beginCommand 0xE0 s))

/-- MEAS_MED, code 0xF6 (R144). -/
def execMeasMed (s : State) : Result := .next (th .normal (beginCommand 0xF6 s))

/-- MEAS_HIGH, code 0xFD (R145). -/
def execMeasHigh (s : State) : Result := .next (th .normal (beginCommand 0xFD s))

/-- HEAT_20_SHORT, code 0x15 (R148). -/
def execHeat20Short (s : State) : Result := .next (th .heater (beginCommand 0x15 s))

/-- HEAT_20_LONG, code 0x1E (R149). -/
def execHeat20Long (s : State) : Result := .next (th .heater (beginCommand 0x1E s))

/-- HEAT_110_SHORT, code 0x24 (R150). -/
def execHeat110Short (s : State) : Result := .next (th .heater (beginCommand 0x24 s))

/-- HEAT_110_LONG, code 0x2F (R151). -/
def execHeat110Long (s : State) : Result := .next (th .heater (beginCommand 0x2F s))

/-- HEAT_200_SHORT, code 0x32 (R152). -/
def execHeat200Short (s : State) : Result := .next (th .heater (beginCommand 0x32 s))

/-- HEAT_200_LONG, code 0x39 (R153). -/
def execHeat200Long (s : State) : Result := .next (th .heater (beginCommand 0x39 s))

end Sys2Proof.Machine
end

