-- ==== Sys2Proof/Machine/Access.lean ====
section
/-! DEFINITION. The bus transactions: RD (spec R52), and WR (R53) with the command dispatch Execute (R72). -/

namespace Sys2Proof.Machine

/-- Execute(v), together with the write to LAST_CMD that comes first (R23, R53, R72). -/
def execute (v : Byte) (s : State) : Result :=
  match v.toNat with
  | 0x01 => execCheck s
  | 0x02 => execClear s
  | 0x15 => execHeat20Short s
  | 0x1E => execHeat20Long s
  | 0x24 => execHeat110Short s
  | 0x2F => execHeat110Long s
  | 0x32 => execHeat200Short s
  | 0x39 => execHeat200Long s
  | 0x89 => execReadSn s
  | 0xE0 => execMeasLow s
  | 0xF6 => execMeasMed s
  | 0xFD => execMeasHigh s
  | 0x94 => execSoftReset s
  | _ => execIllegal v s

/-- RD (R52). The DATA field of a read is ignored (R70). -/
def execRd (off : Offset) (_data : Byte) (s : State) : Result := .next (busRead off s)

/-- WR (R53): a write to CMD, offset 0x06, runs a command. -/
def execWr (off : Offset) (data : Byte) (s : State) : Result :=
  if off = 0x06 then execute data s else .next (busWrite off data s)

end Sys2Proof.Machine
end

