-- ==== Sys2Proof/Machine/Dispatch.lean ====
section
/-! DEFINITION. One arm per instruction. -/

namespace Sys2Proof.Machine

def exec (i : Instr) (s : State) : Host.Outcome State Fault Refusal :=
  match i with
  -- bus transactions
  | .rd off data => Sys2Proof.Machine.execRd off data s
  | .wr off data => Sys2Proof.Machine.execWr off data s
  -- commands
  | .check => Sys2Proof.Machine.execCheck s
  | .clear => Sys2Proof.Machine.execClear s
  | .heat20Short => Sys2Proof.Machine.execHeat20Short s
  | .heat20Long => Sys2Proof.Machine.execHeat20Long s
  | .heat110Short => Sys2Proof.Machine.execHeat110Short s
  | .heat110Long => Sys2Proof.Machine.execHeat110Long s
  | .heat200Short => Sys2Proof.Machine.execHeat200Short s
  | .heat200Long => Sys2Proof.Machine.execHeat200Long s
  | .readSn => Sys2Proof.Machine.execReadSn s
  | .softReset => Sys2Proof.Machine.execSoftReset s
  | .measLow => Sys2Proof.Machine.execMeasLow s
  | .measMed => Sys2Proof.Machine.execMeasMed s
  | .measHigh => Sys2Proof.Machine.execMeasHigh s
  | .illegal code => Sys2Proof.Machine.execIllegal code s

end Sys2Proof.Machine
end

