-- ==== Sys2Proof/Machine/Bus.lean ====
section
/-! DEFINITION. What the machine does with the next request of the bus master or of the reset input (spec R14, R58, R230, R231). -/

namespace Sys2Proof.Machine

/-- One request. Asserting reset performs Reset() (R230); while reset is asserted no transaction is
taken (R231); an access that is not one byte wide is no transaction of the block (R58). -/
def serve (r : Request) (s : State) : Result :=
  match r with
  | .resetLine true => .next { resetAction s with rst := true }
  | .resetLine false => .next { s with rst := false }
  | .access bytes word =>
    if s.rst then .refused .transactionDuringReset
    else if bytes = 1 then exec (decodeTxn word) s
    else .refused .notAByteAccess

/-- The oldest request, taken off the queue and served. With none waiting the block keeps its state:
it executes nothing of its own (R33, log 1). -/
def busStep (s : State) : Result :=
  match s.pending with
  | [] => .next s
  | r :: rest => serve r { s with pending := rest }

/-- The transaction that carries an opcode-table row's bits: a command byte travels as a write to
CMD (R53, R71), a transaction word as it is. Bits that decode to nothing travel as an access the
block refuses (log 7, log 8). -/
def fetchRequest (nbits w : Nat) : Request :=
  match decode nbits w with
  | .ok _ =>
    if nbits = 8 then .access 1 (txnWord true 0x06 (BitVec.ofNat 8 w))
    else .access 1 (BitVec.ofNat 14 w)
  | .error _ => .access 2 (BitVec.ofNat 14 w)

/-- The request stands first in the queue and reset is not asserted, so the next step takes it. -/
def placeRequest (r : Request) (s : State) : State :=
  { s with pending := r :: s.pending, rst := false }

end Sys2Proof.Machine
end

