-- ==== Sys2Proof/Machine/Step.lean ====
section
/-! DEFINITION. One step of the machine: one request, or nothing where none is waiting. -/

namespace Sys2Proof.Machine

/-- One step (R14). -/
def step (s : State) : Host.Outcome State Fault Refusal := busStep s

/-- `s` with an opcode-table row's bits placed where the next step takes its transaction. -/
def State.withFetchWord (s : State) (nbits w : Nat) : State :=
  placeRequest (fetchRequest nbits w) s

end Sys2Proof.Machine
end

