-- ==== Sys2Proof/Machine/Pins.lean ====
section
/-! DEFINITION. The reference pin-level interface (spec R239, informative): one rising edge of clk. -/

namespace Sys2Proof.Machine

/-- The input pins in one clock cycle (R239). -/
structure Pins where
  rst : Bool
  sel : Bool
  we : Bool
  addr : Offset
  wdata : Byte
  deriving DecidableEq, Repr

/-- rdata, combinational: the MemRead result in the cycle of a selected read (R239). -/
def Pins.rdata (p : Pins) (b : Block) : Option Byte :=
  if p.sel && !p.we && !p.rst then some (memRead b p.addr) else none

/-- One rising edge (R239): reset holds the registers at their reset values, and a selected cycle is
one transaction. R231 gives no effect to a transaction during reset: it is refused (log 11). -/
def edge (p : Pins) (s : State) : Result :=
  if p.rst then
    if p.sel then .refused .transactionDuringReset
    else .next { resetAction s with rst := true }
  else
    let s := { s with rst := false }
    if p.sel then
      if p.we then execWr p.addr p.wdata s else execRd p.addr p.wdata s
    else .next s

/-- The same cycle as requests: the level of rst, then the transaction where sel is 1 (R70, R239). -/
def Pins.requests (p : Pins) : List Request :=
  .resetLine p.rst :: (if p.sel then [.access 1 (txnWord p.we p.addr p.wdata)] else [])

end Sys2Proof.Machine
end

