-- ==== Sys2Proof/Machine/Script.lean ====
section
/-! DEFINITION. The bus-script notation as abstract syntax, with its encodings and expansions (spec R83, R84). -/

namespace Sys2Proof.Machine

/-- The register names of R20. -/
inductive RegName where
  | frame0 | frame1 | frame2 | frame3 | frame4 | frame5
  | cmd | status
  | tempH | tempL | humH | humL
  | sn3 | sn2 | sn1 | sn0
  | crc0 | crc1
  deriving DecidableEq, Repr

/-- The offset of each register (R20). -/
def RegName.offset : RegName → Offset
  | .frame0 => 0x00 | .frame1 => 0x01 | .frame2 => 0x02
  | .frame3 => 0x03 | .frame4 => 0x04 | .frame5 => 0x05
  | .cmd => 0x06 | .status => 0x07
  | .tempH => 0x08 | .tempL => 0x09 | .humH => 0x0A | .humL => 0x0B
  | .sn3 => 0x0C | .sn2 => 0x0D | .sn1 => 0x0E | .sn0 => 0x0F
  | .crc0 => 0x10 | .crc1 => 0x11

/-- A statement of a bus script: the base statements of R83, then the pseudo-instructions of R84.
An offset may be any of the 32 (log 12). -/
inductive Statement where
  /-- `WR off, byte` -/
  | wr (off : Offset) (byte : Byte)
  /-- `RD off` -/
  | rd (off : Offset)
  /-- `RD off -> byte`; the byte is an annotation and has no effect. -/
  | rdAnnotated (off : Offset) (byte : Byte)
  /-- `RESET` -/
  | reset
  /-- `CMD mnemonic` -/
  | cmd (mnemonic : Instr)
  /-- `FRAME b0, b1, b2, b3, b4, b5` -/
  | frame (b0 b1 b2 b3 b4 b5 : Byte)
  /-- `RD16 TEMP` -/
  | rd16Temp
  /-- `RD16 HUM` -/
  | rd16Hum
  /-- `RD32 SN` -/
  | rd32Sn
  deriving DecidableEq, Repr

/-- A one-byte write, as the transaction word of R70. -/
def writeRequest (off : Offset) (byte : Byte) : Request := .access 1 (txnWord true off byte)

/-- A one-byte read, its DATA field 0x00 (R70). -/
def readRequest (off : Offset) : Request := .access 1 (txnWord false off 0x00)

/-- What a statement makes the bus master and the reset input do, in order (R83, R84). RESET is no
transaction: the reset input is asserted and released (R230, log 12). `CMD` takes a mnemonic of R72;
RD and WR are none. -/
def Statement.requests : Statement → List Request
  | .wr off byte => [writeRequest off byte]
  | .rd off => [readRequest off]
  | .rdAnnotated off _ => [readRequest off]
  | .reset => [.resetLine true, .resetLine false]
  | .cmd mnemonic =>
    match commandCode mnemonic with
    | some code => [writeRequest RegName.cmd.offset code]
    | none => []
  | .frame b0 b1 b2 b3 b4 b5 =>
    [writeRequest RegName.frame0.offset b0, writeRequest RegName.frame1.offset b1,
     writeRequest RegName.frame2.offset b2, writeRequest RegName.frame3.offset b3,
     writeRequest RegName.frame4.offset b4, writeRequest RegName.frame5.offset b5]
  | .rd16Temp => [readRequest RegName.tempH.offset, readRequest RegName.tempL.offset]
  | .rd16Hum => [readRequest RegName.humH.offset, readRequest RegName.humL.offset]
  | .rd32Sn =>
    [readRequest RegName.sn3.offset, readRequest RegName.sn2.offset,
     readRequest RegName.sn1.offset, readRequest RegName.sn0.offset]

/-- A script is its statements in order (R83). -/
def assemble (script : List Statement) : List Request :=
  script.flatMap Statement.requests

end Sys2Proof.Machine
end

