-- ==== Sys2Proof/Safety.lean ====
section
/-! DEFINITION. The words the statements use: what verifies, what each kind of command is, and what holds of a state in every safe run. -/

namespace Sys2Proof.Safety

open Sys2Proof Sys2Proof.Machine

/-! ### Kinds of commands -/

/-- The codes of the three normal T/H commands (R73). -/
def normalCodes : List Byte := [0xE0, 0xF6, 0xFD]

/-- The codes of the six heater T/H commands (R74). -/
def heaterCodes : List Byte := [0x15, 0x1E, 0x24, 0x2F, 0x32, 0x39]

/-- The codes of the frame commands: CHECK, READ_SN and the T/H commands (R20). -/
def frameCodes : List Byte := [0x01, 0x89] ++ normalCodes ++ heaterCodes

/-- The twelve codes that select a command: the frame commands and CLEAR (R72). -/
def commandCodes : List Byte := 0x02 :: frameCodes

/-- The code that a transaction or a command writes to CMD, if it writes CMD at all (R53). -/
def cmdWritten : Instr → Option Byte
  | .wr off data => if off = 0x06 then some data else none
  | i => commandCode i

/-- The instruction writes one of these codes to CMD. -/
abbrev Runs (i : Instr) (codes : List Byte) : Prop := ∃ v ∈ codes, cmdWritten i = some v

/-! ### The frame check -/

/-- Half 0 verifies (R100, R103). -/
abbrev Half0Verifies (f : Frame) : Prop := crc8 f.f0 f.f1 = f.f2

/-- Half 1 verifies (R100, R103). -/
abbrev Half1Verifies (f : Frame) : Prop := crc8 f.f3 f.f4 = f.f5

/-- Both CRCs of the frame verify. -/
abbrev FrameVerifies (f : Frame) : Prop := Half0Verifies f ∧ Half1Verifies f

/-- STATUS after a frame command, as the table of R26 gives it. -/
def frameOutcome (f : Frame) : Byte :=
  if Half0Verifies f then (if Half1Verifies f then 0x01 else 0x04)
  else (if Half1Verifies f then 0x02 else 0x06)

/-- The registers after a frame command with this code has checked the frame and before it writes
any result. -/
def checked (code : Byte) (b : Block) : Block :=
  { b with
    lastCmd := code
    crc0 := crc8 b.frame.f0 b.frame.f1
    crc1 := crc8 b.frame.f3 b.frame.f4
    status := frameOutcome b.frame }

/-- The HUM values R147 admits for a heater command under HEATER_CLAMP = LEGACY. -/
def LegacyAdmits (raw old v : Half) : Prop :=
  (0 ≤ humLin raw ∧ humLin raw ≤ 1000 → v = BitVec.ofInt 16 (humLin raw)) ∧
  (1000 < humLin raw → v = old ∨ v = BitVec.ofInt 16 (humLin raw)) ∧
  (humLin raw < 0 → v = old ∨ v = BitVec.ofInt 16 (humLin raw % 65536))

/-! ### What every step keeps -/

/-- STATUS holds one of the six values of R26. -/
abbrev StatusLegal (b : Block) : Prop := b.status ∈ ([0x00, 0x01, 0x02, 0x04, 0x06, 0x08] : List Byte)

/-- STATUS tells the outcome of the command that LAST_CMD names (R23, R25, R26): 0x00 only after reset
or CLEAR, and then no result is held; 0x01 to 0x06 only after a frame command; 0x08 only after a code
that selects no command. -/
structure OutcomeAgrees (b : Block) : Prop where
  legal : StatusLegal b
  idle : b.status = 0x00 → (b.lastCmd = 0x00 ∨ b.lastCmd = 0x02) ∧
    b.temp = 0 ∧ b.hum = 0 ∧ b.sn = 0 ∧ b.crc0 = 0 ∧ b.crc1 = 0
  frame : b.status ∈ ([0x01, 0x02, 0x04, 0x06] : List Byte) → b.lastCmd ∈ frameCodes
  illegal : b.status = 0x08 → b.lastCmd ∉ commandCodes

/-- The ranges of R27, R28 and R155: TEMP in [−450, 1299]; HUM in [0, 1000] under FIXED, and under
LEGACY a signed reading in [−60, 1189]. -/
structure InRange (s : State) : Prop where
  tempLow : -450 ≤ s.block.temp.toInt
  tempHigh : s.block.temp.toInt ≤ 1299
  humFixed : s.cfg.heaterClamp = .fixed → s.block.hum.toNat ≤ 1000
  humLow : -60 ≤ s.block.hum.toInt
  humHigh : s.block.hum.toInt ≤ 1189

/-- While reset is asserted the registers stay at their reset values (R239). -/
abbrev ResetHolds (s : State) : Prop := s.rst = true → s.block = Block.reset

/-! ### Transactions in order -/

/-- A queue of one-byte transactions. -/
def transactions (ws : List TxnWord) : List Request := ws.map (Request.access 1)

/-- The state after the transaction a word means, with nothing else in between. -/
def afterWord (s : State) (w : TxnWord) : State :=
  match exec (decodeTxn w) s with
  | .next t => t
  | .fault _ => s
  | .refused _ => s

/-- The same state with the register window at another platform address (R9). -/
def withBase (base : Nat) (s : State) : State := { s with cfg := { s.cfg with base := base } }

/-- An outcome with the window's base address replaced in its next state. -/
def outcomeWithBase (base : Nat) : Result → Result
  | .next t => .next (withBase base t)
  | .fault r => .fault r
  | .refused r => .refused r

end Sys2Proof.Safety
end

