-- ==== Sys2Proof/Certificates/Slice0/Obligations.lean ====
section
/-! DEFINITION. The statements about the model. Each docstring names the rule it formalises; "log n" is notes/assumptions/n.md. -/

open Sys2Proof Sys2Proof.Machine Sys2Proof.Safety

/-! ### Reset -/

/-- R36: the reset value of every piece of state of R34 is zero. -/
def Obligations.ResetLeavesEveryRegisterZero : Prop :=
  let b := State.reset.block
  b.frame.f0 = 0x00 ∧ b.frame.f1 = 0x00 ∧ b.frame.f2 = 0x00 ∧
  b.frame.f3 = 0x00 ∧ b.frame.f4 = 0x00 ∧ b.frame.f5 = 0x00 ∧
  b.lastCmd = 0x00 ∧ b.status = 0x00 ∧ b.temp = 0x0000 ∧ b.hum = 0x0000 ∧
  b.sn = 0x00000000 ∧ b.crc0 = 0x00 ∧ b.crc1 = 0x00

/-- R230, R239: when the reset input is asserted every byte of the window reads 0x00 afterwards, and the
configuration is as before. That reset arrives as a request, and what stays of the queue, is the
model's choice (log 1, log 3). -/
def Obligations.AssertingResetClearsTheWindow : Prop :=
  ∀ (s : State) (rest : List Request), s.pending = .resetLine true :: rest →
    ∃ t, step s = .next t ∧ (∀ off, memRead t.block off = 0x00) ∧ t.rst = true ∧
      t.cfg = s.cfg ∧ t.pending = rest

/-- R231, D29: while reset is asserted a transaction is refused, and once reset is released the next
transaction is taken at once (log 3). -/
def Obligations.ResetBlocksTransactionsUntilReleased : Prop :=
  (∀ (s : State) (n : Nat) (w : TxnWord) (rest : List Request),
    s.rst = true → s.pending = .access n w :: rest →
      step s = .refused .transactionDuringReset) ∧
  (∀ (s : State) (w : TxnWord) (rest : List Request),
    s.pending = .resetLine false :: .access 1 w :: rest →
      ∃ t, step s = .next t ∧ t.block = s.block ∧
        step t = exec (decodeTxn w) { s with pending := rest, rst := false })

/-- R58, D5: an access that is not one byte wide is no transaction of the block and is refused, at
every offset, for reads and for writes (log 7). -/
def Obligations.WiderAccessIsRefused : Prop :=
  ∀ (s : State) (n : Nat) (w : TxnWord) (rest : List Request),
    s.rst = false → n ≠ 1 → s.pending = .access n w :: rest →
      step s = .refused .notAByteAccess

/-! ### The step and the encodings -/

/-- A step runs the transaction its word decodes to, with the queue moved on (R14, R70); a command byte
reaches the block as a write to CMD, and the step runs the command it decodes to (R53, R71); with
nothing waiting the block keeps its state (R33). The queue is the model's (log 1, log 8). -/
def Obligations.StepRunsTheDecodedInstruction : Prop :=
  (∀ (s : State) (w : TxnWord) (rest : List Request) (i : Instr),
    s.rst = false → s.pending = .access 1 w :: rest → decode 14 w.toNat = .ok i →
      step s = exec i { s with pending := rest }) ∧
  (∀ (s : State) (code : Byte) (rest : List Request) (i : Instr),
    s.rst = false → s.pending = .access 1 (txnWord true 0x06 code) :: rest →
    decode 8 code.toNat = .ok i →
      step s = exec i { s with pending := rest }) ∧
  (∀ s : State, s.pending = [] → step s = .next s)

/-- The bits of an opcode-table row, placed by `withFetchWord`, are what the next step runs, whatever
was waiting and whatever the reset input's level (log 1, log 8). -/
def Obligations.PlacedWordRunsNext : Prop :=
  ∀ (s : State) (nbits w : Nat) (i : Instr), decodeTableWord nbits w = some i →
    step (s.withFetchWord nbits w) = exec i { s with rst := false }

/-- Words written out from R70, R72 and the programs of 95_test_vectors.md. -/
def Obligations.WrittenOutWordsDecode : Prop :=
  decode 14 0b10011011111101 = .ok (.wr 0x06 0xFD) ∧
  decode 14 0b00011100000000 = .ok (.rd 0x07 0x00) ∧
  decode 14 0b11111110101010 = .ok (.wr 0x1F 0xAA) ∧
  decode 8 0b00000001 = .ok .check ∧
  decode 8 0b10001001 = .ok .readSn ∧
  decode 8 0b00110010 = .ok .heat200Short ∧
  decode 8 0b11110110 = .ok .measMed ∧
  decode 8 0b10010100 = .ok .softReset ∧
  decode 8 0b00000000 = .ok (.illegal 0x00)

/-- R70: a transaction is one word `W[13] ∥ OFF[12:8] ∥ DATA[7:0]`, as a number
`(W << 13) | (OFF << 8) | DATA`; W = 1 is a write and W = 0 a read; a read ignores DATA. -/
def Obligations.TransactionWordIsItsThreeFields : Prop :=
  (∀ (write : Bool) (off : Offset) (data : Byte),
    (txnWord write off data).toNat = (write.toNat <<< 13) ||| (off.toNat <<< 8) ||| data.toNat ∧
    (txnWord write off data).getLsbD 13 = write ∧
    (txnWord write off data).extractLsb' 8 5 = off ∧
    (txnWord write off data).extractLsb' 0 8 = data) ∧
  (∀ (off : Offset) (data : Byte),
    decodeTxn (txnWord true off data) = .wr off data ∧
    decodeTxn (txnWord false off data) = .rd off data ∧
    ∀ s : State, exec (.rd off data) s = exec (.rd off 0x00) s)

/-- Decoding an encoded well-formed instruction gives it back, with every operand. -/
def Obligations.DecodeEncodeAgree : Prop :=
  ∀ i : Instr, i.WellFormed → decode (encode i).1 (encode i).2 = .ok i

/-- Every transaction word and every command byte has exactly one meaning: it decodes to a well-formed
instruction whose encoding it is, and every other string of bits is rejected (R70, R71, R78, R82;
16 bits are 14 in whole bytes, log 7). -/
def Obligations.EveryWordHasOneMeaning : Prop :=
  (∀ w < 2 ^ 14, ∃ i, decode 14 w = .ok i ∧ decode 16 w = .ok i ∧ i.WellFormed ∧
    encode i = (14, w)) ∧
  (∀ v < 2 ^ 8, ∃ i, decode 8 v = .ok i ∧ i.WellFormed ∧ encode i = (8, v)) ∧
  (∀ n w, ¬ (n = 8 ∧ w < 2 ^ 8) → ¬ ((n = 14 ∨ n = 16) ∧ w < 2 ^ 14) →
    decodeTableWord n w = none)

/-- R72: a write to CMD runs exactly the command its value selects, and every value outside the table
runs the illegal-command action. -/
def Obligations.CmdWriteRunsTheSelectedCommand : Prop :=
  ∀ s : State,
    exec (.wr 0x06 0x01) s = exec .check s ∧
    exec (.wr 0x06 0x02) s = exec .clear s ∧
    exec (.wr 0x06 0x15) s = exec .heat20Short s ∧
    exec (.wr 0x06 0x1E) s = exec .heat20Long s ∧
    exec (.wr 0x06 0x24) s = exec .heat110Short s ∧
    exec (.wr 0x06 0x2F) s = exec .heat110Long s ∧
    exec (.wr 0x06 0x32) s = exec .heat200Short s ∧
    exec (.wr 0x06 0x39) s = exec .heat200Long s ∧
    exec (.wr 0x06 0x89) s = exec .readSn s ∧
    exec (.wr 0x06 0xE0) s = exec .measLow s ∧
    exec (.wr 0x06 0xF6) s = exec .measMed s ∧
    exec (.wr 0x06 0xFD) s = exec .measHigh s ∧
    exec (.wr 0x06 0x94) s = exec .softReset s ∧
    ∀ v : Byte, v ∉ namedCodes → exec (.wr 0x06 v) s = exec (.illegal v) s

/-- R72, R78: exactly 12 of the 256 values written to CMD end without CMD_ERR; the other 244 set
STATUS to 0x08, whatever the state. -/
def Obligations.TwelveCodesSelectACommand : Prop :=
  commandCodes.Nodup ∧ commandCodes.length = 12 ∧
  ∀ (s : State) (v : Byte), ∃ t, exec (.wr 0x06 v) s = .next t ∧
    (t.block.status = 0x08 ↔ v ∉ commandCodes)

/-! ### The register window -/

/-- R52: the byte at each offset, and a read changes no register. -/
def Obligations.ReadGivesTheRegisterByte : Prop :=
  (∀ b : Block,
    memRead b 0x00 = b.frame.f0 ∧ memRead b 0x01 = b.frame.f1 ∧ memRead b 0x02 = b.frame.f2 ∧
    memRead b 0x03 = b.frame.f3 ∧ memRead b 0x04 = b.frame.f4 ∧ memRead b 0x05 = b.frame.f5 ∧
    memRead b 0x06 = b.lastCmd ∧ memRead b 0x07 = b.status ∧
    memRead b 0x08 = b.temp.extractLsb' 8 8 ∧ memRead b 0x09 = b.temp.extractLsb' 0 8 ∧
    memRead b 0x0A = b.hum.extractLsb' 8 8 ∧ memRead b 0x0B = b.hum.extractLsb' 0 8 ∧
    memRead b 0x0C = b.sn.extractLsb' 24 8 ∧ memRead b 0x0D = b.sn.extractLsb' 16 8 ∧
    memRead b 0x0E = b.sn.extractLsb' 8 8 ∧ memRead b 0x0F = b.sn.extractLsb' 0 8 ∧
    memRead b 0x10 = b.crc0 ∧ memRead b 0x11 = b.crc1 ∧
    ∀ off : Offset, 0x12 ≤ off.toNat → memRead b off = 0x00) ∧
  (∀ (off : Offset) (data : Byte) (s : State),
    ∃ t, exec (.rd off data) s = .next t ∧ t.block = s.block)

/-- R52, R70: a read completes in every state, returns the byte at its offset, and changes nothing
else, whatever its DATA field holds. That the byte stands in `rdata` is the model's choice (log 2). -/
def Obligations.ReadReturnsOneByteAndIgnoresData : Prop :=
  ∀ (off : Offset) (data : Byte) (s : State),
    exec (.rd off data) s = .next { s with rdata := some (memRead s.block off) }

/-- R55: the results lie big-endian at rising offsets, so their bytes joined in that order are the
registers. -/
def Obligations.ResultsReadBigEndian : Prop :=
  ∀ b : Block,
    memRead b 0x08 ++ memRead b 0x09 = b.temp ∧
    memRead b 0x0A ++ memRead b 0x0B = b.hum ∧
    memRead b 0x0C ++ memRead b 0x0D ++ memRead b 0x0E ++ memRead b 0x0F = b.sn

/-- R34: the window shows the whole block: two blocks that read the same at every offset are equal, so
there is no hidden register. -/
def Obligations.WindowShowsTheWholeBlock : Prop :=
  ∀ b b' : Block, (∀ off, memRead b off = memRead b' off) → b = b'

/-- R53, for FRAME0 to FRAME5: the byte written is there, every other byte of the window is as before,
and no byte is returned (log 2). -/
def Obligations.FrameWriteStoresOneByte : Prop :=
  ∀ (off : Offset) (v : Byte) (s : State), off.toNat < 6 →
    ∃ t, exec (.wr off v) s = .next t ∧ memRead t.block off = v ∧
      (∀ a, a ≠ off → memRead t.block a = memRead s.block a) ∧
      t.cfg = s.cfg ∧ t.draws = s.draws ∧ t.pending = s.pending ∧ t.rst = s.rst ∧ t.rdata = none

/-- Offsets 0x07 to 0x11 (R30): a write to a read-only register is ignored and changes no state. Offsets
0x12 to 0x1F (R31): the same, and a read gives 0x00. The model's own fields stay as well (log 1, 3, 4, 5), but
for the returned byte: a write returns none (log 2). -/
def Obligations.ReadOnlyAndReservedWritesAreIgnored : Prop :=
  ∀ (off : Offset) (v : Byte) (s : State), 0x07 ≤ off.toNat →
    (0x12 ≤ off.toNat → memRead s.block off = 0x00) ∧
    ∃ t, exec (.wr off v) s = .next t ∧ t.block = s.block ∧
      t.cfg = s.cfg ∧ t.draws = s.draws ∧ t.pending = s.pending ∧ t.rst = s.rst ∧ t.rdata = none

/-- R23: every value is legal to write to CMD, and LAST_CMD is that value afterwards. -/
def Obligations.CmdWriteIsReadBack : Prop :=
  ∀ (v : Byte) (s : State),
    ∃ t, exec (.wr 0x06 v) s = .next t ∧ memRead t.block 0x06 = v

/-- R79, R80: the operands assembled from FRAME, most significant byte first. -/
def Obligations.OperandsAreAssembledBigEndian : Prop :=
  ∀ f : Frame,
    (rawT f).toNat = 256 * f.f0.toNat + f.f1.toNat ∧ crcT f = f.f2 ∧
    (rawH f).toNat = 256 * f.f3.toNat + f.f4.toNat ∧ crcH f = f.f5 ∧
    (snVal f).toNat =
      2 ^ 24 * f.f0.toNat + 2 ^ 16 * f.f1.toNat + 2 ^ 8 * f.f3.toNat + f.f4.toNat

/-! ### CRC-8 -/

/-- R101: the CRC byte step is eight turns of shift and conditional XOR after XORing the byte in;
R102: the CRC of two bytes starts from 0xFF. The 24 values of 95_test_vectors.md section 2.1, column by
column. -/
def Obligations.PublishedCrcVectorsHold : Prop :=
  crc8 0x00 0x00 = 0x81 ∧ crc8 0x00 0x01 = 0xB0 ∧ crc8 0x01 0x00 = 0x75 ∧ crc8 0x80 0x00 = 0xA2 ∧
  crc8 0x00 0x80 = 0xFB ∧ crc8 0xFF 0xFF = 0xAC ∧ crc8 0xFF 0x00 = 0x00 ∧ crc8 0x00 0xFF = 0x2D ∧
  crc8 0xBE 0xEF = 0x92 ∧ crc8 0x40 0x00 = 0x08 ∧ crc8 0xC0 0x00 = 0x2B ∧ crc8 0x00 0x25 = 0xF2 ∧
  crc8 0x62 0x4D = 0x7C ∧ crc8 0x5C 0x39 = 0x9F ∧ crc8 0x12 0x34 = 0x37 ∧ crc8 0xAB 0xCD = 0x6F ∧
  crc8 0x66 0x66 = 0x93 ∧ crc8 0x7F 0xFF = 0x8F ∧ crc8 0xD9 0x17 = 0x52 ∧ crc8 0xD9 0x4B = 0x51 ∧
  crc8 0x0C 0x49 = 0x80 ∧ crc8 0x0C 0x4A = 0xD3 ∧ crc8 0x41 0xD5 = 0x0D ∧ crc8 0x92 0x4A = 0xF3

/-- R106 (derived there): for each first byte the CRC is a bijection of the second byte, and for each
second byte a bijection of the first. -/
def Obligations.CrcIsABijectionInEachByte : Prop :=
  (∀ b0, Function.Bijective fun b1 => crc8 b0 b1) ∧
  (∀ b1, Function.Bijective fun b0 => crc8 b0 b1)

/-- R106 (derived there): a half that verifies no longer does after a change confined to one of its
three bytes. -/
def Obligations.OneChangedByteIsDetected : Prop :=
  ∀ d0 d1 c x : Byte, halfOk d0 d1 c = true →
    (x ≠ d0 → halfOk x d1 c = false) ∧ (x ≠ d1 → halfOk d0 x c = false) ∧
    (x ≠ c → halfOk d0 d1 x = false)

/-- R106 (derived there): the 8-turn loop of the CRC step is an invertible linear map over GF(2). -/
def Obligations.CrcLoopIsLinearAndInvertible : Prop :=
  (∀ x y : Byte, crcLoop 8 (x ^^^ y) = crcLoop 8 x ^^^ crcLoop 8 y) ∧
  Function.Bijective (crcLoop 8)

/-- The CRC as long division: crc8 is what is left of `(b0 XOR 0xFF) ∥ b1 ∥ 0x00` after subtracting
0x131 under every bit from 23 down to 8 (the polynomial x^8 + x^5 + x^4 + 1 of R102, which the spec marks as
general knowledge). -/
def Obligations.CrcIsThePolynomialRemainder : Prop :=
  ∀ b0 b1 : Byte,
    let divide (r : BitVec 24) (k : Nat) : BitVec 24 :=
      if r.getLsbD (k + 8) then r ^^^ (0x000131#24 <<< k) else r
    ([15, 14, 13, 12, 11, 10, 9, 8, 7, 6, 5, 4, 3, 2, 1, 0].foldl divide
      ((b0 ^^^ 0xFF) ++ b1 ++ 0x00#8)) = 0x0000#16 ++ crc8 b0 b1

/-! ### Conversion -/

/-- R140, R141: the conversions are floor divisions of exact products, with the offset taken off after
the shift, and humidity clamped into [0, 1000]. -/
def Obligations.ConversionsAreExactFloors : Prop :=
  ∀ raw : Half,
    (65536 * (convT raw + 450) ≤ raw.toNat * 1750 ∧ raw.toNat * 1750 < 65536 * (convT raw + 451)) ∧
    (65536 * (humLin raw + 60) ≤ raw.toNat * 1250 ∧ raw.toNat * 1250 < 65536 * (humLin raw + 61)) ∧
    (humLin raw < 0 → convH raw = 0) ∧ (1000 < humLin raw → convH raw = 1000) ∧
    (0 ≤ humLin raw → humLin raw ≤ 1000 → convH raw = humLin raw)

/-- R155 (derived there): the ranges of the conversions, that no 16-bit result loses a bit, and that
conv_t and hum_lin never decrease. -/
def Obligations.ConversionRangesAndMonotony : Prop :=
  (∀ raw : Half, -450 ≤ convT raw ∧ convT raw ≤ 1299 ∧ (s16 (convT raw)).toInt = convT raw ∧
    -60 ≤ humLin raw ∧ humLin raw ≤ 1189 ∧ 0 ≤ convH raw ∧ convH raw ≤ 1000 ∧
    ((s16 (convH raw)).toNat : Int) = convH raw) ∧
  convT 0xFFFF = 1299 ∧ humLin 0xFFFF = 1189 ∧
  (∀ a b : Half, a.toNat ≤ b.toNat → convT a ≤ convT b ∧ humLin a ≤ humLin b)

/-- R156 (derived there): the threshold counts. -/
def Obligations.ThresholdCounts : Prop :=
  ∀ raw : Half,
    (convT raw = -450 ↔ raw.toNat ≤ 37) ∧
    (0 ≤ convT raw ↔ 16853 ≤ raw.toNat) ∧
    (humLin raw < 0 ↔ raw.toNat ≤ 3145) ∧
    (raw.toNat = 3146 → humLin raw = 0) ∧
    (humLin raw ≤ 1000 ↔ raw.toNat ≤ 55626) ∧
    (1000 < humLin raw ↔ 55627 ≤ raw.toNat)

/-- R147: over both draws, the LEGACY result takes exactly the members of the spec's set, and no
value outside it. -/
def Obligations.LegacyDrawsAreExactlyTheAdmittedSet : Prop :=
  ∀ raw old v : Half, (∃ keepOld, legacyHum raw old keepOld = v) ↔ LegacyAdmits raw old v

/-! ### The commands -/

/-- R105: CHECK writes LAST_CMD, CRC0, CRC1 and STATUS and no other register; STATUS tells which halves
fail. -/
def Obligations.CheckVerifiesTheFrame : Prop :=
  ∀ s : State, ∃ t, exec .check s = .next t ∧ t.block = checked 0x01 s.block

/-- R120: READ_SN writes SN only where both halves verify, and never FRAME, TEMP or HUM. -/
def Obligations.ReadSnAssemblesTheSerialNumber : Prop :=
  ∀ s : State, ∃ t, exec .readSn s = .next t ∧
    (FrameVerifies s.block.frame → t.block =
      { checked 0x89 s.block with
        sn := s.block.frame.f0 ++ s.block.frame.f1 ++ s.block.frame.f3 ++ s.block.frame.f4 }) ∧
    (¬ FrameVerifies s.block.frame → t.block = checked 0x89 s.block)

/-- R142 to R145: each normal T/H command, under either HEATER_CLAMP setting. -/
def Obligations.NormalCommandsConvertTheFrame : Prop :=
  ∀ (i : Instr) (code : Byte),
    (i, code) ∈ ([(.measLow, 0xE0), (.measMed, 0xF6), (.measHigh, 0xFD)] : List (Instr × Byte)) →
    ∀ s : State, ∃ t, exec i s = .next t ∧
      (FrameVerifies s.block.frame → t.block =
        { checked code s.block with
          temp := BitVec.ofInt 16 (convT (s.block.frame.f0 ++ s.block.frame.f1))
          hum := BitVec.ofInt 16 (convH (s.block.frame.f3 ++ s.block.frame.f4)) }) ∧
      (¬ FrameVerifies s.block.frame → t.block = checked code s.block)

/-- R148 to R153 (TH(HEATER), R142): each heater command, under either HEATER_CLAMP setting: HUM is
clamped under FIXED (R146) and some member of the admitted set under LEGACY, whatever the draw (R147;
log 4). -/
def Obligations.HeaterCommandsConvertTheFrame : Prop :=
  ∀ (i : Instr) (code : Byte),
    (i, code) ∈ ([(.heat20Short, 0x15), (.heat20Long, 0x1E), (.heat110Short, 0x24),
      (.heat110Long, 0x2F), (.heat200Short, 0x32), (.heat200Long, 0x39)] : List (Instr × Byte)) →
    ∀ s : State, ∃ t, exec i s = .next t ∧
      (FrameVerifies s.block.frame → ∃ h,
        t.block =
          { checked code s.block with
            temp := BitVec.ofInt 16 (convT (s.block.frame.f0 ++ s.block.frame.f1))
            hum := h } ∧
        (s.cfg.heaterClamp = .fixed →
          h = BitVec.ofInt 16 (convH (s.block.frame.f3 ++ s.block.frame.f4))) ∧
        (s.cfg.heaterClamp = .legacy →
          LegacyAdmits (s.block.frame.f3 ++ s.block.frame.f4) s.block.hum h)) ∧
      (¬ FrameVerifies s.block.frame → t.block = checked code s.block)

/-- R170: CLEAR leaves STATUS reading 0x00, LAST_CMD 0x02, and every other byte of the window 0x00. -/
def Obligations.ClearRestoresResetValuesButLastCmd : Prop :=
  ∀ s : State, ∃ t, exec .clear s = .next t ∧ memRead t.block 0x06 = 0x02 ∧
    (∀ off, off ≠ 0x06 → memRead t.block off = 0x00) ∧ t.cfg = s.cfg

/-- R171, R204: a code that selects no command, 0x94 among them, sets STATUS to 0x08 and LAST_CMD to
the code, and changes no other register, as a command and as a write to CMD. -/
def Obligations.IllegalCodesOnlyReport : Prop :=
  (∀ s : State, ∃ t, exec .softReset s = .next t ∧
    t.block = { s.block with lastCmd := 0x94, status := 0x08 }) ∧
  (∀ (v : Byte) (s : State), v ∉ namedCodes → ∃ t, exec (.illegal v) s = .next t ∧
    t.block = { s.block with lastCmd := v, status := 0x08 }) ∧
  (∀ (v : Byte) (s : State), v ∉ commandCodes → ∃ t, exec (.wr 0x06 v) s = .next t ∧
    t.block = { s.block with lastCmd := v, status := 0x08 })

/-- R202, R200: a frame command on a frame with a bad half sets the error bits of exactly the bad halves,
with OK and CMD_ERR 0, and keeps TEMP, HUM and SN and the received CRC bytes. -/
def Obligations.IntegrityFailureKeepsResults : Prop :=
  ∀ (i : Instr) (s : State), i.WellFormed → Runs i frameCodes → ¬ FrameVerifies s.block.frame →
    ∃ t, exec i s = .next t ∧
      (statusOk t.block.status = false ∧ statusCmdErr t.block.status = false) ∧
      (statusCrc0Err t.block.status = true ↔ ¬ Half0Verifies s.block.frame) ∧
      (statusCrc1Err t.block.status = true ↔ ¬ Half1Verifies s.block.frame) ∧
      t.block.temp = s.block.temp ∧ t.block.hum = s.block.hum ∧ t.block.sn = s.block.sn ∧
      t.block.frame = s.block.frame

/-- R121 (derived there): the same frame serves READ_SN and a T/H command; the serial number is then the
two raw counts joined, and neither is an error. -/
def Obligations.OneFrameServesBothKinds : Prop :=
  ∀ s : State, FrameVerifies s.block.frame →
    ∃ t u, exec .readSn s = .next t ∧ exec .measHigh s = .next u ∧
      t.block.sn = rawT s.block.frame ++ rawH s.block.frame ∧
      u.block.temp = s16 (convT (rawT s.block.frame)) ∧
      t.block.status = 0x01 ∧ u.block.status = 0x01

/-- R146: under FIXED a heater command leaves the same registers as a normal command, but for the code
in LAST_CMD. -/
def Obligations.HeaterEqualsNormalUnderFixed : Prop :=
  ∀ (i j : Instr) (s : State), s.cfg.heaterClamp = .fixed → Runs i heaterCodes → Runs j normalCodes →
    i.WellFormed → j.WellFormed →
    ∃ t u, exec i s = .next t ∧ exec j s = .next u ∧
      { t.block with lastCmd := 0 } = { u.block with lastCmd := 0 }

/-! ### What every instruction does and leaves alone -/

/-- R14: no transaction faults and none is stuck: every instruction completes in every state, and so does
every one-byte transaction that reaches the block out of reset (log 1, log 3, log 10). -/
def Obligations.EveryTransactionCompletes : Prop :=
  (∀ (i : Instr) (s : State), ∃ t, exec i s = .next t) ∧
  (∀ (s : State) (w : TxnWord) (rest : List Request),
    s.rst = false → s.pending = .access 1 w :: rest → ∃ t, step s = .next t ∧ t.pending = rest)

/-- R21: an instruction changes FRAME only if it is a bus write to FRAME0 to FRAME5 or runs CLEAR. -/
def Obligations.FrameChangesOnlyByWriteOrClear : Prop :=
  ∀ (i : Instr) (s t : State), i.WellFormed → exec i s = .next t →
    t.block.frame ≠ s.block.frame →
      (∃ off v, i = .wr off v ∧ off.toNat < 6) ∨ Runs i [0x02]

/-- R27, R28, R233: what TEMP and HUM hold after any instruction: the conversion of the frame after a T/H
command that ends with STATUS 0x01 (for HUM after a heater command under LEGACY, a member of the set R147
admits, whatever the draw; log 4), zero after CLEAR, and otherwise what they held. -/
def Obligations.TempAndHumHoldTheLastMeasurement : Prop :=
  ∀ (i : Instr) (s t : State), i.WellFormed → exec i s = .next t →
    (Runs i (normalCodes ++ heaterCodes) → t.block.status = 0x01 →
      t.block.temp = s16 (convT (rawT s.block.frame)) ∧
      (Runs i normalCodes ∨ s.cfg.heaterClamp = .fixed →
        t.block.hum = s16 (convH (rawH s.block.frame))) ∧
      (Runs i heaterCodes → s.cfg.heaterClamp = .legacy →
        LegacyAdmits (rawH s.block.frame) s.block.hum t.block.hum)) ∧
    (Runs i (normalCodes ++ heaterCodes) → t.block.status ≠ 0x01 →
      t.block.temp = s.block.temp ∧ t.block.hum = s.block.hum) ∧
    (Runs i [0x02] → t.block.temp = 0 ∧ t.block.hum = 0) ∧
    (¬ Runs i (0x02 :: (normalCodes ++ heaterCodes)) →
      t.block.temp = s.block.temp ∧ t.block.hum = s.block.hum)

/-- R29, R233: what SN holds after any instruction. -/
def Obligations.SerialHoldsTheLastReadSn : Prop :=
  ∀ (i : Instr) (s t : State), i.WellFormed → exec i s = .next t →
    (Runs i [0x89] → t.block.status = 0x01 → t.block.sn = snVal s.block.frame) ∧
    (Runs i [0x89] → t.block.status ≠ 0x01 → t.block.sn = s.block.sn) ∧
    (Runs i [0x02] → t.block.sn = 0) ∧
    (¬ Runs i [0x02, 0x89] → t.block.sn = s.block.sn)

/-- R30: every frame command writes CRC0 and CRC1 with the CRCs it computed, whether or not they
verify; CLEAR zeroes them; no other instruction changes them. -/
def Obligations.ComputedCrcsAreKeptForTheHost : Prop :=
  ∀ (i : Instr) (s t : State), i.WellFormed → exec i s = .next t →
    (Runs i frameCodes →
      t.block.crc0 = crc8 s.block.frame.f0 s.block.frame.f1 ∧
      t.block.crc1 = crc8 s.block.frame.f3 s.block.frame.f4) ∧
    (Runs i [0x02] → t.block.crc0 = 0 ∧ t.block.crc1 = 0) ∧
    (¬ Runs i commandCodes → t.block.crc0 = s.block.crc0 ∧ t.block.crc1 = s.block.crc1)

/-- R23, R24, R35: only a write to CMD changes LAST_CMD or STATUS, and STATUS is then replaced whole: it
depends on the code and the frame alone, not on what it held. -/
def Obligations.OnlyCommandsWriteStatus : Prop :=
  (∀ (i : Instr) (s t : State), exec i s = .next t → cmdWritten i = none →
    t.block.status = s.block.status ∧ t.block.lastCmd = s.block.lastCmd) ∧
  (∀ (i : Instr) (v : Byte) (s t s' t' : State), cmdWritten i = some v →
    s.block.frame = s'.block.frame → exec i s = .next t → exec i s' = .next t' →
    t.block.status = t'.block.status ∧ t.block.lastCmd = v)

/-- The model's own fields: no instruction changes the configuration, the queue or the reset input; only a
read returns a byte; and a draw is taken only by a heater command that passes its check under LEGACY (R14,
R147; log 1 to 5). -/
def Obligations.InstructionsKeepTheSurroundings : Prop :=
  ∀ (i : Instr) (s t : State), i.WellFormed → exec i s = .next t →
    t.cfg = s.cfg ∧ t.pending = s.pending ∧ t.rst = s.rst ∧
    ((∀ off data, i ≠ .rd off data) → t.rdata = none) ∧
    (t.draws ≠ s.draws →
      t.draws = s.draws + 1 ∧ Runs i heaterCodes ∧ s.cfg.heaterClamp = .legacy ∧
        t.block.status = 0x01)

/-- R13, R59: commands read only the frame and the configuration; a heater command under LEGACY reads the
earlier HUM and its draw too. From two states that agree on what a command reads, what it writes is the same.
That the draws agree where their index does is the model's (log 4). -/
def Obligations.CommandsReadOnlyTheFrame : Prop :=
  ∀ (i : Instr) (s s' t t' : State), i.WellFormed → Runs i commandCodes →
    s.block.frame = s'.block.frame → s.cfg = s'.cfg →
    (Runs i heaterCodes → s.cfg.heaterClamp = .legacy →
      s.block.hum = s'.block.hum ∧ s.draws = s'.draws) →
    exec i s = .next t → exec i s' = .next t' →
      t.block.frame = t'.block.frame ∧ t.block.lastCmd = t'.block.lastCmd ∧
      t.block.status = t'.block.status ∧
      t.block.crc0 = t'.block.crc0 ∧ t.block.crc1 = t'.block.crc1 ∧
      (Runs i (normalCodes ++ heaterCodes) → FrameVerifies s.block.frame →
        t.block.temp = t'.block.temp ∧ t.block.hum = t'.block.hum) ∧
      (Runs i [0x89] → FrameVerifies s.block.frame → t.block.sn = t'.block.sn) ∧
      (Runs i [0x02] →
        t.block.temp = t'.block.temp ∧ t.block.hum = t'.block.hum ∧ t.block.sn = t'.block.sn)

/-- R59 (derived there): repeating a transaction or a command leaves the same state as doing it once,
except a heater command under LEGACY. -/
def Obligations.RepeatingChangesNothing : Prop :=
  ∀ (i : Instr) (s t : State), i.WellFormed →
    (Runs i heaterCodes → s.cfg.heaterClamp = .fixed) →
    exec i s = .next t → exec i t = .next t

/-- R9: no rule depends on CRCCONV_BASE: a step from a state with another base gives the same outcome
with that base. -/
def Obligations.BaseAddressIsNeverRead : Prop :=
  ∀ (s : State) (base : Nat), step (withBase base s) = outcomeWithBase base (step s)

/-- R62, R57: a queue of transactions takes effect in the order it was issued, one whole transaction after
another, and the registers at the end are those of the transactions run one by one. The queue is the
model's (log 1, log 9). -/
def Obligations.TransactionsTakeEffectInOrder : Prop :=
  ∀ (ws : List TxnWord) (s : State) (rest : List Request),
    s.rst = false → s.pending = transactions ws ++ rest →
      Host.Core.run core ws.length s =
        .next (ws.foldl afterWord { s with pending := rest })

/-! ### Invariants -/

/-- R26: whatever STATUS held, a step leaves it with one of the six values, if it had one of them. -/
def Obligations.StepKeepsStatusLegal : Prop :=
  ∀ s t : State, StatusLegal s.block → step s = .next t → StatusLegal t.block

/-- R23, R25, R26: STATUS tells the outcome of the command that LAST_CMD names, after every step. -/
def Obligations.StepKeepsOutcomeAgreement : Prop :=
  ∀ s t : State, OutcomeAgrees s.block → step s = .next t → OutcomeAgrees t.block

/-- R27, R28, R155: every step keeps TEMP and HUM in their ranges. -/
def Obligations.StepKeepsResultsInRange : Prop :=
  ∀ s t : State, InRange s → step s = .next t → InRange t

/-- R239: while reset is asserted the registers stay at their reset values. -/
def Obligations.StepKeepsResetHolding : Prop :=
  ∀ s t : State, ResetHolds s → step s = .next t → ResetHolds t

/-- The invariants hold right after reset, for every configuration (R36). -/
def Obligations.ResetMeetsTheInvariants : Prop :=
  ∀ cfg : Config, StatusLegal (State.resetWith cfg).block ∧ OutcomeAgrees (State.resetWith cfg).block ∧
    InRange (State.resetWith cfg) ∧ ResetHolds (State.resetWith cfg)

/-! ### Notations of the same transactions -/

/-- R84: the pseudo-instructions expand as the table says; `CMD` writes the mnemonic's code, and the word it
makes decodes to a write of that code to CMD. R83: `WR` and `RD` make the words of its table, and an annotation
changes nothing. That `CMD` of an ILLEGAL code writes that code is the model's choice (log 12). -/
def Obligations.PseudoInstructionsExpand : Prop :=
  (∀ (i : Instr) (v : Byte), commandCode i = some v →
    Statement.requests (.cmd i) = Statement.requests (.wr 0x06 v) ∧
    ∃ w, Statement.requests (.cmd i) = [.access 1 w] ∧ decode 14 w.toNat = .ok (.wr 0x06 v)) ∧
  (∀ b0 b1 b2 b3 b4 b5 : Byte,
    Statement.requests (.frame b0 b1 b2 b3 b4 b5) =
      assemble [.wr 0x00 b0, .wr 0x01 b1, .wr 0x02 b2, .wr 0x03 b3, .wr 0x04 b4, .wr 0x05 b5]) ∧
  Statement.requests .rd16Temp = assemble [.rd 0x08, .rd 0x09] ∧
  Statement.requests .rd16Hum = assemble [.rd 0x0A, .rd 0x0B] ∧
  Statement.requests .rd32Sn = assemble [.rd 0x0C, .rd 0x0D, .rd 0x0E, .rd 0x0F] ∧
  (∀ (off : Offset) (v : Byte),
    Statement.requests (.wr off v) = [.access 1 (BitVec.ofNat 14 ((1 <<< 13) ||| (off.toNat <<< 8) ||| v.toNat))] ∧
    Statement.requests (.rd off) = [.access 1 (BitVec.ofNat 14 (off.toNat <<< 8))] ∧
    Statement.requests (.rdAnnotated off v) = Statement.requests (.rd off))

/-- R83: the script statement RESET performs the reset action and leaves the block ready for the next
transaction (asserting and then releasing the reset input is the model's choice, log 12). -/
def Obligations.ScriptResetPerformsReset : Prop :=
  ∀ s : State, s.pending = [] →
    Host.Core.run core (Statement.requests .reset).length { s with pending := Statement.requests .reset } =
      .next { s with block := Block.reset, rst := false, rdata := none }

/-- R239, R70: one rising edge does what the requests of the same cycle do: the level of rst, then the
transaction the pins carry where sel is 1. The order of the two and the queue are the model's (log 11). -/
def Obligations.ClockEdgeIsTheTransaction : Prop :=
  ∀ (p : Pins) (s : State), s.pending = [] →
    Host.Core.run core p.requests.length { s with pending := p.requests } = edge p s

/-- R9, R50: the 32 offsets of the window are the platform addresses from CRCCONV_BASE on, and no other
address is one (log 15). -/
def Obligations.WindowAddressesAreThirtyTwo : Prop :=
  ∀ (cfg : Config) (addr : Nat) (off : Offset),
    windowOffset cfg addr = some off ↔ windowAddress cfg off = addr
end

