-- ==== Sys2Proof/Laws/State.lean ====
section
/-! SUPPORT. What each named update of the state does to each field. -/

namespace Sys2Proof.Machine

@[simp] theorem beginCommand_block (code : Byte) (s : State) : (beginCommand code s).block = { s.block with lastCmd := code } := rfl
@[simp] theorem beginCommand_cfg (code : Byte) (s : State) : (beginCommand code s).cfg = s.cfg := rfl
@[simp] theorem beginCommand_draws (code : Byte) (s : State) : (beginCommand code s).draws = s.draws := rfl
@[simp] theorem beginCommand_pending (code : Byte) (s : State) : (beginCommand code s).pending = s.pending := rfl
@[simp] theorem beginCommand_rst (code : Byte) (s : State) : (beginCommand code s).rst = s.rst := rfl
@[simp] theorem beginCommand_rdata (code : Byte) (s : State) : (beginCommand code s).rdata = none := rfl

@[simp] theorem busWrite_block (off : Offset) (v : Byte) (s : State) : (busWrite off v s).block = { s.block with frame := writeFrame off v s.block.frame } := rfl
@[simp] theorem busWrite_cfg (off : Offset) (v : Byte) (s : State) : (busWrite off v s).cfg = s.cfg := rfl
@[simp] theorem busWrite_draws (off : Offset) (v : Byte) (s : State) : (busWrite off v s).draws = s.draws := rfl
@[simp] theorem busWrite_pending (off : Offset) (v : Byte) (s : State) : (busWrite off v s).pending = s.pending := rfl
@[simp] theorem busWrite_rst (off : Offset) (v : Byte) (s : State) : (busWrite off v s).rst = s.rst := rfl
@[simp] theorem busWrite_rdata (off : Offset) (v : Byte) (s : State) : (busWrite off v s).rdata = none := rfl

@[simp] theorem busRead_block (off : Offset) (s : State) : (busRead off s).block = s.block := rfl
@[simp] theorem busRead_cfg (off : Offset) (s : State) : (busRead off s).cfg = s.cfg := rfl
@[simp] theorem busRead_draws (off : Offset) (s : State) : (busRead off s).draws = s.draws := rfl
@[simp] theorem busRead_pending (off : Offset) (s : State) : (busRead off s).pending = s.pending := rfl
@[simp] theorem busRead_rst (off : Offset) (s : State) : (busRead off s).rst = s.rst := rfl
@[simp] theorem busRead_rdata (off : Offset) (s : State) : (busRead off s).rdata = some (memRead s.block off) := rfl

@[simp] theorem snResult_block (s : State) : (snResult s).block = { s.block with sn := snVal s.block.frame } := rfl
@[simp] theorem snResult_cfg (s : State) : (snResult s).cfg = s.cfg := rfl
@[simp] theorem snResult_draws (s : State) : (snResult s).draws = s.draws := rfl
@[simp] theorem snResult_pending (s : State) : (snResult s).pending = s.pending := rfl
@[simp] theorem snResult_rst (s : State) : (snResult s).rst = s.rst := rfl
@[simp] theorem snResult_rdata (s : State) : (snResult s).rdata = s.rdata := rfl

@[simp] theorem illegalAction_block (code : Byte) (s : State) : (illegalAction code s).block = raise (.illegalCommand code) s.block := rfl
@[simp] theorem illegalAction_cfg (code : Byte) (s : State) : (illegalAction code s).cfg = s.cfg := rfl
@[simp] theorem illegalAction_draws (code : Byte) (s : State) : (illegalAction code s).draws = s.draws := rfl
@[simp] theorem illegalAction_pending (code : Byte) (s : State) : (illegalAction code s).pending = s.pending := rfl
@[simp] theorem illegalAction_rst (code : Byte) (s : State) : (illegalAction code s).rst = s.rst := rfl
@[simp] theorem illegalAction_rdata (code : Byte) (s : State) : (illegalAction code s).rdata = s.rdata := rfl

@[simp] theorem clearRegisters_block (s : State) : (clearRegisters s).block = { Block.reset with lastCmd := s.block.lastCmd } := rfl
@[simp] theorem clearRegisters_cfg (s : State) : (clearRegisters s).cfg = s.cfg := rfl
@[simp] theorem clearRegisters_draws (s : State) : (clearRegisters s).draws = s.draws := rfl
@[simp] theorem clearRegisters_pending (s : State) : (clearRegisters s).pending = s.pending := rfl
@[simp] theorem clearRegisters_rst (s : State) : (clearRegisters s).rst = s.rst := rfl
@[simp] theorem clearRegisters_rdata (s : State) : (clearRegisters s).rdata = s.rdata := rfl

@[simp] theorem resetAction_block (s : State) : (resetAction s).block = Block.reset := rfl
@[simp] theorem resetAction_cfg (s : State) : (resetAction s).cfg = s.cfg := rfl
@[simp] theorem resetAction_draws (s : State) : (resetAction s).draws = s.draws := rfl
@[simp] theorem resetAction_pending (s : State) : (resetAction s).pending = s.pending := rfl
@[simp] theorem resetAction_rst (s : State) : (resetAction s).rst = s.rst := rfl
@[simp] theorem resetAction_rdata (s : State) : (resetAction s).rdata = none := rfl

@[simp] theorem placeRequest_block (r : Request) (s : State) : (placeRequest r s).block = s.block := rfl
@[simp] theorem placeRequest_cfg (r : Request) (s : State) : (placeRequest r s).cfg = s.cfg := rfl
@[simp] theorem placeRequest_draws (r : Request) (s : State) : (placeRequest r s).draws = s.draws := rfl
@[simp] theorem placeRequest_pending (r : Request) (s : State) : (placeRequest r s).pending = r :: s.pending := rfl
@[simp] theorem placeRequest_rst (r : Request) (s : State) : (placeRequest r s).rst = false := rfl
@[simp] theorem placeRequest_rdata (r : Request) (s : State) : (placeRequest r s).rdata = s.rdata := rfl

@[simp] theorem raise_frame (c : Cause) (b : Block) : (raise c b).frame = b.frame := rfl
@[simp] theorem raise_lastCmd (c : Cause) (b : Block) : (raise c b).lastCmd = b.lastCmd := rfl
@[simp] theorem raise_temp (c : Cause) (b : Block) : (raise c b).temp = b.temp := rfl
@[simp] theorem raise_hum (c : Cause) (b : Block) : (raise c b).hum = b.hum := rfl
@[simp] theorem raise_sn (c : Cause) (b : Block) : (raise c b).sn = b.sn := rfl
@[simp] theorem raise_crc0 (c : Cause) (b : Block) : (raise c b).crc0 = b.crc0 := rfl
@[simp] theorem raise_crc1 (c : Cause) (b : Block) : (raise c b).crc1 = b.crc1 := rfl
@[simp] theorem raise_status (c : Cause) (b : Block) : (raise c b).status = causeStatus c := rfl

end Sys2Proof.Machine
end

