-- ==== Sys2Proof/Laws/Bus.lean ====
section
/-! SUPPORT. What one step can do, by the oldest request. -/

namespace Sys2Proof.Machine

theorem step_idle (s : State) (h : s.pending = []) : step s = .next s := by
  simp [step, busStep, h]

theorem step_request (s : State) (r : Request) (rest : List Request) (h : s.pending = r :: rest) :
    step s = serve r { s with pending := rest } := by
  simp [step, busStep, h]

theorem serve_transaction (s : State) (w : TxnWord) (h : s.rst = false) :
    serve (.access 1 w) s = exec (decodeTxn w) s := by
  simp [serve, h]

/-- Everything a step that answers a next state can have done. -/
theorem step_cases (s t : State) (h : step s = .next t) :
    (s.pending = [] ∧ t = s) ∨
    (∃ rest, s.pending = .resetLine true :: rest ∧
      t = { resetAction { s with pending := rest } with rst := true }) ∨
    (∃ rest, s.pending = .resetLine false :: rest ∧ t = { s with pending := rest, rst := false }) ∨
    (∃ w rest, s.pending = .access 1 w :: rest ∧ s.rst = false ∧
      exec (decodeTxn w) { s with pending := rest } = .next t) := by
  match queue : s.pending with
  | [] => simp_all [step_idle s queue]
  | .resetLine true :: rest =>
    rw [step_request s _ rest queue] at h
    simp_all [serve]
  | .resetLine false :: rest =>
    rw [step_request s _ rest queue] at h
    simp_all [serve]
  | .access n w :: rest =>
    rw [step_request s _ rest queue] at h
    by_cases low : s.rst <;> by_cases one : n = 1 <;> simp_all [serve]

end Sys2Proof.Machine
end

