-- ==== Sys2Proof/Laws/Convert.lean ====
section
/-! SUPPORT. The conversions as divisions, and narrowing to 16 bits. -/

namespace Sys2Proof.Machine

theorem convT_eq_div (raw : Half) : convT raw = (raw.toNat * 1750 / 65536 : Nat) - 450 := by
  simp [convT, Nat.shiftRight_eq_div_pow]

theorem humLin_eq_div (raw : Half) : humLin raw = (raw.toNat * 1250 / 65536 : Nat) - 60 := by
  simp [humLin, Nat.shiftRight_eq_div_pow]

theorem s16_toInt_of_range (v : Int) (low : -32768 ≤ v) (high : v ≤ 32767) : (s16 v).toInt = v := by
  simp only [s16, BitVec.toInt_ofInt]
  exact Int.bmod_eq_of_le (by omega) (by omega)

theorem s16_toNat_of_range (v : Int) (low : 0 ≤ v) (high : v ≤ 65535) : ((s16 v).toNat : Int) = v := by
  simp only [s16, BitVec.toNat_ofInt]
  omega

theorem legacyHum_in_range (raw old : Half) (keepOld : Bool) (low : 0 ≤ humLin raw)
    (high : humLin raw ≤ 1000) : legacyHum raw old keepOld = s16 (humLin raw) := by
  simp [legacyHum, low, high]

theorem legacyHum_out_of_range (raw old : Half) (keepOld : Bool)
    (out : ¬ (0 ≤ humLin raw ∧ humLin raw ≤ 1000)) :
    legacyHum raw old keepOld = if keepOld then old else s16 (humLin raw) := by
  simp only [legacyHum, if_neg out]

end Sys2Proof.Machine
end

