-- ==== Sys2Proof/Laws/Crc.lean ====
section
/-! SUPPORT. The CRC step, turn by turn. -/

namespace Sys2Proof.Machine

/-- A turn of the loop is linear over GF(2). -/
theorem crcBit_xor (x y : Byte) : crcBit (x ^^^ y) = crcBit x ^^^ crcBit y := by
  have shift : (x ^^^ y) <<< 1 = (x <<< 1) ^^^ (y <<< 1) := BitVec.shiftLeft_xor_distrib x y 1
  unfold crcBit
  rw [BitVec.getLsbD_xor, shift]
  cases x.getLsbD 7 <;> cases y.getLsbD 7 <;> simp <;> ac_nf
  simp

/-- No two values give the same value after one turn: the polynomial's bit 0 records the bit shifted
out (R106). -/
theorem crcBit_injective : Function.Injective crcBit := by
  have zero_only : ∀ z : Byte, crcBit z = 0 → z = 0 := by decide
  intro x y h
  have : crcBit (x ^^^ y) = 0 := by rw [crcBit_xor, h]; exact BitVec.xor_self
  exact BitVec.xor_eq_zero_iff.mp (zero_only _ this)

theorem crcLoop_succ (n : Nat) (c : Byte) : crcLoop (n + 1) c = crcLoop n (crcBit c) := rfl

theorem crc8Step_eq (c b : Byte) : crc8Step c b = crcLoop 8 (c ^^^ b) := rfl

theorem halfOk_iff (d0 d1 c : Byte) : halfOk d0 d1 c = true ↔ crc8 d0 d1 = c := by
  simp [halfOk]

end Sys2Proof.Machine
end

