-- ==== Sys2Proof/Laws/Decode.lean ====
section
/-! SUPPORT. The opcode table: no two rows match one code. -/

namespace Sys2Proof

theorem commandTable_codes_distinct : (commandTable.map Prod.fst).Pairwise (· ≠ ·) := by decide

theorem commandTable_codes_named : commandTable.map Prod.fst = namedCodes := by decide

theorem commandTable_rows_encode : ∀ row ∈ commandTable, commandCode row.2 = some row.1 := by decide

theorem decodeCommand_of_not_named (v : Byte) (h : v ∉ namedCodes) : decodeCommand v = .illegal v := by
  have none_there : commandTable.lookup v = none := by
    rw [List.lookup_eq_none_iff]
    intro row at_row
    have named : row.1 ∈ namedCodes := commandTable_codes_named ▸ List.mem_map_of_mem at_row
    have differs : v ≠ row.1 := fun same => h (same ▸ named)
    simpa using differs
  simp [decodeCommand, none_there]

end Sys2Proof
end

