-- ==== Sys2Proof/Laws/Ops.lean ====
section
/-! SUPPORT. What each shared operation can do, said once. -/

namespace Sys2Proof.Machine

open Sys2Proof.Safety

/-- FrameCheck (R104), with the registers it leaves. -/
theorem frameCheck_eq (b : Block) :
    frameCheck b =
      if FrameVerifies b.frame then .ok (checked b.lastCmd b) else .error (checked b.lastCmd b) := by
  by_cases h0 : crc8 b.frame.f0 b.frame.f1 = b.frame.f2 <;>
    by_cases h1 : crc8 b.frame.f3 b.frame.f4 = b.frame.f5 <;>
    simp [frameCheck, halfOk, crcT, crcH, raise, causeStatus, okStatus, checked, frameOutcome,
      Half0Verifies, Half1Verifies, h0, h1]

/-- A frame command (R104, R201): its results follow only where both halves verify. -/
theorem afterFrameCheck_begin (k : State → State) (code : Byte) (s : State) :
    afterFrameCheck k (beginCommand code s) =
      if FrameVerifies s.block.frame then k { s with block := checked code s.block, rdata := none }
      else { s with block := checked code s.block, rdata := none } := by
  simp only [afterFrameCheck, frameCheck_eq, beginCommand_block]
  by_cases h : FrameVerifies s.block.frame
  · rw [if_pos h, if_pos h]; rfl
  · rw [if_neg h, if_neg h]; rfl

/-- The results of a normal T/H command, and of a heater one under FIXED (R142). -/
theorem thResults_clamped (m : ThMode) (s : State) (h : m = .normal ∨ s.cfg.heaterClamp = .fixed) :
    thResults m s =
      { s with
        block :=
          { s.block with
            temp := s16 (convT (rawT s.block.frame))
            hum := s16 (convH (rawH s.block.frame)) } } := by
  rcases h with rfl | h
  · rfl
  · cases m <;> simp [thResults, h]

/-- The results of a heater T/H command under LEGACY (R147). -/
theorem thResults_drawn (s : State) (h : s.cfg.heaterClamp = .legacy) :
    thResults .heater s =
      { s with
        block :=
          { s.block with
            temp := s16 (convT (rawT s.block.frame))
            hum := legacyHum (rawH s.block.frame) s.block.hum (Config.legacyDraw s.draws) }
        draws := s.draws + 1 } := by
  simp [thResults, h]

/-- A write to FRAME(off) touches that byte of the window alone. -/
theorem writeFrame_of_ge (off : Offset) (v : Byte) (f : Frame) (h : 6 ≤ off.toNat) :
    writeFrame off v f = f := by
  unfold writeFrame
  split <;> first | rfl | omega

/-- The offsets above 0x11 hold nothing (R31). -/
theorem memRead_reserved (b : Block) (off : Offset) (h : 0x12 ≤ off.toNat) : memRead b off = 0x00 := by
  unfold memRead
  split <;> first | rfl | omega

end Sys2Proof.Machine
end

