-- ==== Sys2Proof/Laws/PerInstr.lean ====
section
/-! SUPPORT. Statements about every instruction as syntax, one lemma per constructor. -/

namespace Sys2Proof

/-- A transaction as a number fits 14 bits (R70). -/
theorem txnNumber_lt (write : Bool) (off : Offset) (data : Byte) : txnNumber write off data < 2 ^ 14 := by
  unfold txnNumber
  refine Nat.or_lt_two_pow (Nat.or_lt_two_pow ?_ ?_) ?_
  · cases write <;> simp
  · have := off.isLt
    simp only [Nat.shiftLeft_eq]
    omega
  · have := data.isLt
    omega

end Sys2Proof

namespace Sys2Proof.Laws.EncodingFits

/-- The encoding is 14 bits for a transaction and 8 for a command, and fits them (R70, R71). -/
def Statement (i : Instr) : Prop :=
  ((encode i).1 = 14 ∨ (encode i).1 = 8) ∧ (encode i).2 < 2 ^ (encode i).1

theorem rd (off : Offset) (data : Byte) : Statement (.rd off data) :=
  ⟨.inl rfl, txnNumber_lt false off data⟩

theorem wr (off : Offset) (data : Byte) : Statement (.wr off data) :=
  ⟨.inl rfl, txnNumber_lt true off data⟩

theorem check : Statement .check := by unfold Statement; decide

theorem clear : Statement .clear := by unfold Statement; decide

theorem heat20Short : Statement .heat20Short := by unfold Statement; decide

theorem heat20Long : Statement .heat20Long := by unfold Statement; decide

theorem heat110Short : Statement .heat110Short := by unfold Statement; decide

theorem heat110Long : Statement .heat110Long := by unfold Statement; decide

theorem heat200Short : Statement .heat200Short := by unfold Statement; decide

theorem heat200Long : Statement .heat200Long := by unfold Statement; decide

theorem readSn : Statement .readSn := by unfold Statement; decide

theorem softReset : Statement .softReset := by unfold Statement; decide

theorem measLow : Statement .measLow := by unfold Statement; decide

theorem measMed : Statement .measMed := by unfold Statement; decide

theorem measHigh : Statement .measHigh := by unfold Statement; decide

theorem illegal (code : Byte) : Statement (.illegal code) := ⟨.inr rfl, code.isLt⟩

end Sys2Proof.Laws.EncodingFits
end

