-- ==== Sys2Proof/Machine/ScriptText.lean ====
section
/-! DEFINITION. Reading a bus script as text: one statement a line, `;` starts a comment (spec R83, R84). -/

namespace Sys2Proof.Machine

/-- A word being read, its letters in reverse, as the words it makes: none if it is empty. -/
def closeWord (letters : List Char) : List String :=
  if letters.isEmpty then [] else [String.ofList letters.reverse]

/-- The words of a line up to its comment. Blanks separate words; `,` and `->` are words of their own. -/
def lineWords : List Char → List Char → List String
  | [], letters => closeWord letters
  | ';' :: _, letters => closeWord letters
  | ',' :: rest, letters => closeWord letters ++ "," :: lineWords rest []
  | '-' :: '>' :: rest, letters => closeWord letters ++ "->" :: lineWords rest []
  | c :: rest, letters =>
    if c.isWhitespace then closeWord letters ++ lineWords rest [] else lineWords rest (c :: letters)

/-- The sixteen hexadecimal digits, each at its value. -/
def hexAlphabet : List Char := "0123456789ABCDEF".toList

/-- The number these hexadecimal digits make, most significant first, in either case (log 12). -/
def hexValue (digits : List Char) : Option Nat :=
  digits.foldlM (fun n digit => (hexAlphabet.idxOf? digit.toUpper).map (16 * n + ·)) 0

/-- A hexadecimal number below `2 ^ w`, written `0x..` (R11, R83). -/
def hexNumber (w : Nat) (word : String) : Option (BitVec w) :=
  match word.toList with
  | '0' :: 'x' :: c :: digits =>
    match hexValue (c :: digits) with
    | some n => if n < 2 ^ w then some (BitVec.ofNat w n) else none
    | none => none
  | _ => none

/-- The register names of R20. -/
def registerNames : List (String × RegName) :=
  [("FRAME0", .frame0), ("FRAME1", .frame1), ("FRAME2", .frame2),
   ("FRAME3", .frame3), ("FRAME4", .frame4), ("FRAME5", .frame5),
   ("CMD", .cmd), ("STATUS", .status),
   ("TEMP_H", .tempH), ("TEMP_L", .tempL), ("HUM_H", .humH), ("HUM_L", .humL),
   ("SN3", .sn3), ("SN2", .sn2), ("SN1", .sn1), ("SN0", .sn0),
   ("CRC0", .crc0), ("CRC1", .crc1)]

/-- The mnemonics of R72 that name one code. -/
def commandNames : List (String × Instr) :=
  [("CHECK", .check), ("CLEAR", .clear), ("READ_SN", .readSn), ("SOFT_RESET", .softReset),
   ("MEAS_LOW", .measLow), ("MEAS_MED", .measMed), ("MEAS_HIGH", .measHigh),
   ("HEAT_20_SHORT", .heat20Short), ("HEAT_20_LONG", .heat20Long),
   ("HEAT_110_SHORT", .heat110Short), ("HEAT_110_LONG", .heat110Long),
   ("HEAT_200_SHORT", .heat200Short), ("HEAT_200_LONG", .heat200Long)]

/-- An offset: a register name or a hexadecimal number (R83). -/
def readOffset (word : String) : Option Offset :=
  match registerNames.lookup word with
  | some name => some name.offset
  | none => hexNumber 5 word

/-- The statement that the words of a line make (R83, R84), if they make one. -/
def readWords : List String → Option Statement
  | ["WR", off, ",", byte] => do return .wr (← readOffset off) (← hexNumber 8 byte)
  | ["RD", off] => do return .rd (← readOffset off)
  | ["RD", off, "->", byte] => do return .rdAnnotated (← readOffset off) (← hexNumber 8 byte)
  | ["RESET"] => some .reset
  | ["CMD", mnemonic] => (commandNames.lookup mnemonic).map .cmd
  | ["FRAME", b0, ",", b1, ",", b2, ",", b3, ",", b4, ",", b5] => do
    return .frame (← hexNumber 8 b0) (← hexNumber 8 b1) (← hexNumber 8 b2)
      (← hexNumber 8 b3) (← hexNumber 8 b4) (← hexNumber 8 b5)
  | ["RD16", "TEMP"] => some .rd16Temp
  | ["RD16", "HUM"] => some .rd16Hum
  | ["RD32", "SN"] => some .rd32Sn
  | _ => none

/-- The statements of a script's lines; a line with no word makes none, and a line that is no
statement makes the script unreadable (log 12). -/
def readLines : List String → Option (List Statement)
  | [] => some []
  | line :: rest =>
    match lineWords line.toList [] with
    | [] => readLines rest
    | words => do return (← readWords words) :: (← readLines rest)

end Sys2Proof.Machine
end

