-- ==== Sys2Proof/Tests/Slice0.lean ====
section
/-! SUPPORT. Small tests, their expected values from spec 95_test_vectors.md, the rules' examples and the encodings of R70 and R72; then a witness for the hypotheses of each statement. -/

namespace Sys2Proof.Tests

open Sys2Proof Sys2Proof.Machine Sys2Proof.Safety

-- One theorem after another: side by side, each `decide +kernel` holds a thread while it waits.
set_option Elab.async false

/-! ### Well-formedness -/

/-- The one check: the code of the ILLEGAL row is none that a named row matches. -/
theorem test_illegal_with_a_named_code_is_ill_formed : ∀ v ∈ namedCodes, ¬ (Instr.illegal v).WellFormed := by
  decide

theorem test_illegal_with_another_code_is_well_formed :
    (Instr.illegal 0x00).WellFormed ∧ (Instr.illegal 0xFF).WellFormed := by decide

/-! ### Decoding: words written out from R70 and R72 -/

theorem test_decode_rd : decodeTableWord 16 0b0000011100000000 = some (.rd 0x07 0x00) := by decide
theorem test_decode_rd_ignored_data : decodeTableWord 16 0b0001000110101010 = some (.rd 0x11 0xAA) := by decide
theorem test_decode_wr : decodeTableWord 16 0b0010011011111101 = some (.wr 0x06 0xFD) := by decide
theorem test_decode_wr_last_offset : decodeTableWord 14 0b11111110101010 = some (.wr 0x1F 0xAA) := by decide
theorem test_decode_check : decodeTableWord 8 0b00000001 = some .check := by decide
theorem test_decode_clear : decodeTableWord 8 0b00000010 = some .clear := by decide
theorem test_decode_heat20Short : decodeTableWord 8 0b00010101 = some .heat20Short := by decide
theorem test_decode_heat20Long : decodeTableWord 8 0b00011110 = some .heat20Long := by decide
theorem test_decode_heat110Short : decodeTableWord 8 0b00100100 = some .heat110Short := by decide
theorem test_decode_heat110Long : decodeTableWord 8 0b00101111 = some .heat110Long := by decide
theorem test_decode_heat200Short : decodeTableWord 8 0b00110010 = some .heat200Short := by decide
theorem test_decode_heat200Long : decodeTableWord 8 0b00111001 = some .heat200Long := by decide
theorem test_decode_readSn : decodeTableWord 8 0b10001001 = some .readSn := by decide
theorem test_decode_softReset : decodeTableWord 8 0b10010100 = some .softReset := by decide
theorem test_decode_measLow : decodeTableWord 8 0b11100000 = some .measLow := by decide
theorem test_decode_measMed : decodeTableWord 8 0b11110110 = some .measMed := by decide
theorem test_decode_measHigh : decodeTableWord 8 0b11111101 = some .measHigh := by decide
theorem test_decode_illegal : decodeTableWord 8 0b00000000 = some (.illegal 0x00) := by decide
theorem test_decode_rejects_wide_words :
    decodeTableWord 8 0x100 = none ∧ decodeTableWord 16 0x4000 = none ∧ decodeTableWord 32 0 = none := by decide

/-! ### CRC-8 and the conversions (95_test_vectors.md 2.1, 2.3, 2.4, 2.6) -/

theorem test_crc_turns_of_the_trace :
    crcLoop 1 0x9D = 0x0B ∧ crcLoop 5 0x9D = 0xB0 ∧ crcLoop 8 0x9D = 0x75 ∧ crcLoop 8 0x38 = 0x7C := by
  decide +kernel
theorem test_crc_of_66_66 : crc8 0x66 0x66 = 0x93 := by decide +kernel
theorem test_convT : convT 0x0025 = -450 ∧ convT 0x0026 = -449 ∧ convT 0x41D4 = -1 ∧ convT 0x41D5 = 0 ∧
    s16 (convT 0x4000) = 0xFFF3 := by decide +kernel
theorem test_humLin : humLin 0x0C49 = -1 ∧ humLin 0x0C7F = 1 ∧ humLin 0xD94B = 1001 ∧ convH 0xD94B = 1000 ∧
    s16 (convH 0xD94A) = 0x03E8 := by decide +kernel
theorem test_legacy_high_draws :
    legacyHum 0xFFFF 0x0186 true = 0x0186 ∧ legacyHum 0xFFFF 0x0186 false = 0x04A5 := by decide +kernel
theorem test_legacy_low_draws :
    legacyHum 0x0000 0x0186 true = 0x0186 ∧ legacyHum 0x0000 0x0186 false = 0xFFC4 := by decide +kernel

/-! ### One step of each instruction -/

/-- Reset, with these bytes in FRAME. -/
def loaded (b0 b1 b2 b3 b4 b5 : Byte) : State :=
  { State.reset with block := { Block.reset with frame := ⟨b0, b1, b2, b3, b4, b5⟩ } }

/-- The same under HEATER_CLAMP = LEGACY, with a HUM value left from before. -/
def legacyLoaded (b0 b1 b2 b3 b4 b5 : Byte) : State :=
  { loaded b0 b1 b2 b3 b4 b5 with
    cfg := { heaterClamp := .legacy, base := 0 }
    block := { Block.reset with frame := ⟨b0, b1, b2, b3, b4, b5⟩, hum := 0x0186 } }

/-- The state after an instruction. -/
def after (i : Instr) (s : State) : State :=
  match exec i s with
  | .next t => t
  | .fault _ => s
  | .refused _ => s

/-- The end of vector V-TH-1. -/
def measured : State := after .measLow (loaded 0x62 0x4D 0x7C 0x5C 0x39 0x9F)

/-- P1: RD TEMP_L gives 0xDD. -/
theorem test_rd_temp_low : (after (.rd 0x09 0x00) measured).rdata = some 0xDD := by decide +kernel
/-- V-CT-5: a reserved offset reads 0x00. -/
theorem test_rd_reserved : (after (.rd 0x1F 0xFF) measured).rdata = some 0x00 := by decide +kernel
/-- V-CT-7: a write to STATUS is ignored. -/
theorem test_wr_status_ignored : (after (.wr 0x07 0x00) measured).block = measured.block := by decide +kernel
/-- R53: a write to CMD with 0x94 runs the illegal action, not a reset. -/
theorem test_wr_cmd_runs : (after (.wr 0x06 0x94) measured).block.status = 0x08 ∧
    (after (.wr 0x06 0x94) measured).block.temp = 0x00DD := by decide +kernel
/-- V-CK-2. -/
theorem test_check_reset_frame : (after .check State.reset).block =
    { Block.reset with lastCmd := 0x01, status := 0x06, crc0 := 0x81, crc1 := 0x81 } := by decide +kernel
/-- V-CK-6. -/
theorem test_check_half0_bad : (after .check (loaded 0x62 0x4D 0x01 0x5C 0x39 0x9F)).block.status = 0x02 := by
  decide +kernel
/-- V-CT-1. -/
theorem test_clear : (after .clear measured).block = { Block.reset with lastCmd := 0x02 } := by decide +kernel
/-- V-SN-1. -/
theorem test_readSn : (after .readSn (loaded 0x12 0x34 0x37 0xAB 0xCD 0x6F)).block.sn = 0x1234ABCD := by
  decide +kernel
/-- V-SN-5. -/
theorem test_readSn_bad_half : (after .readSn (loaded 0x12 0x34 0x38 0xAB 0xCD 0x6F)).block.status = 0x02 ∧
    (after .readSn (loaded 0x12 0x34 0x38 0xAB 0xCD 0x6F)).block.sn = 0 := by decide +kernel
/-- V-TH-1. -/
theorem test_measLow : measured.block.temp = 0x00DD ∧ measured.block.hum = 0x0186 ∧
    measured.block.lastCmd = 0xE0 ∧ measured.block.status = 0x01 := by decide +kernel
/-- V-TH-6. -/
theorem test_measLow_minus_one : (after .measLow (loaded 0x41 0xD4 0x3C 0x0C 0x4A 0xD3)).block.temp = 0xFFFF := by
  decide +kernel
/-- V-TH-2. -/
theorem test_measMed : (after .measMed (loaded 0x66 0x66 0x93 0x80 0x00 0xA2)).block.temp = 0x00F9 ∧
    (after .measMed (loaded 0x66 0x66 0x93 0x80 0x00 0xA2)).block.hum = 0x0235 := by decide +kernel
/-- V-TH-4. -/
theorem test_measHigh : (after .measHigh (loaded 0xFF 0xFF 0xAC 0xFF 0xFF 0xAC)).block.temp = 0x0513 ∧
    (after .measHigh (loaded 0xFF 0xFF 0xAC 0xFF 0xFF 0xAC)).block.hum = 0x03E8 := by decide +kernel
/-- V-LG-4: LEGACY never applies to a normal command. -/
theorem test_measHigh_under_legacy :
    (after .measHigh (legacyLoaded 0x00 0x00 0x81 0xFF 0xFF 0xAC)).block.hum = 0x03E8 := by decide +kernel
/-- V-TH-7. -/
theorem test_heat20Short : (after .heat20Short (loaded 0x80 0x00 0xA2 0xD9 0x4A 0x60)).block.hum = 0x03E8 := by
  decide +kernel
/-- V-TH-12. -/
theorem test_heat20Long_bad_half : (after .heat20Long (loaded 0x62 0x4D 0x7C 0x5C 0x39 0xD6)).block =
    { (loaded 0x62 0x4D 0x7C 0x5C 0x39 0xD6).block with
      lastCmd := 0x1E, status := 0x04, crc0 := 0x7C, crc1 := 0x9F } := by decide +kernel
/-- V-TH-14. -/
theorem test_heat20Long : (after .heat20Long (loaded 0xFF 0xFF 0xAC 0x00 0x00 0x81)).block.temp = 0x0513 ∧
    (after .heat20Long (loaded 0xFF 0xFF 0xAC 0x00 0x00 0x81)).block.hum = 0x0000 := by decide +kernel
/-- V-TH-8. -/
theorem test_heat110Short : (after .heat110Short (loaded 0x80 0x00 0xA2 0xD9 0x4B 0x51)).block.hum = 0x03E8 := by
  decide +kernel
/-- V-LG-3: in range, LEGACY draws nothing else. -/
theorem test_heat110Short_under_legacy :
    (after .heat110Short (legacyLoaded 0x62 0x4D 0x7C 0x5C 0x39 0x9F)).block.hum = 0x0186 := by decide +kernel
/-- V-TH-9. -/
theorem test_heat110Long : (after .heat110Long (loaded 0x40 0x00 0x08 0xC0 0x00 0x2B)).block.temp = 0xFFF3 ∧
    (after .heat110Long (loaded 0x40 0x00 0x08 0xC0 0x00 0x2B)).block.hum = 0x036D := by decide +kernel
/-- V-TH-10. -/
theorem test_heat200Short : (after .heat200Short (loaded 0x80 0x00 0xA2 0xD9 0x17 0x52)).block.temp = 0x01A9 ∧
    (after .heat200Short (loaded 0x80 0x00 0xA2 0xD9 0x17 0x52)).block.hum = 0x03E8 := by decide +kernel
/-- V-TH-13. -/
theorem test_heat200Long : (after .heat200Long (loaded 0x00 0x00 0x81 0xFF 0xFF 0xAC)).block.temp = 0xFE3E := by
  decide +kernel
/-- A heater command that passes its check under LEGACY stores the drawn HUM (R147). -/
theorem heat200Long_hum_drawn (s : State) (verified : FrameVerifies s.block.frame)
    (legacy : s.cfg.heaterClamp = .legacy) :
    (after .heat200Long s).block.hum =
      legacyHum (rawH s.block.frame) s.block.hum (Config.legacyDraw s.draws) := by
  show (afterFrameCheck (thResults .heater) (beginCommand 0x39 s)).block.hum = _
  rw [afterFrameCheck_begin, if_pos verified, thResults_drawn _ (by exact legacy)]
  rfl

/-- V-LG-1: whatever the draw, HUM is one of the two admitted values. -/
theorem test_heat200Long_under_legacy :
    (after .heat200Long (legacyLoaded 0x00 0x00 0x81 0xFF 0xFF 0xAC)).block.hum = 0x0186 ∨
    (after .heat200Long (legacyLoaded 0x00 0x00 0x81 0xFF 0xFF 0xAC)).block.hum = 0x04A5 := by
  have both : ∀ draw, legacyHum 0xFFFF 0x0186 draw = 0x0186 ∨ legacyHum 0xFFFF 0x0186 draw = 0x04A5 := by
    decide +kernel
  rw [heat200Long_hum_drawn _ (by decide +kernel) rfl]
  exact both _
/-- V-CT-2. -/
theorem test_softReset : (after .softReset measured).block =
    { measured.block with lastCmd := 0x94, status := 0x08 } := by decide +kernel
/-- V-CT-4. -/
theorem test_illegal : (after (.illegal 0xFF) State.reset).block =
    { Block.reset with lastCmd := 0xFF, status := 0x08 } := by decide +kernel

/-- 2.5 of R83: the words of P1's first and seventh lines. -/
theorem test_script_words :
    assemble [.wr RegName.frame0.offset 0x62, .cmd .measHigh, .rd RegName.status.offset] =
      [.access 1 0x2062, .access 1 0x26FD, .access 1 0x0700] := by decide
/-- Lines of P1 (95_test_vectors.md) as text, and the words printed beside them. -/
theorem test_script_text :
    (readLines ["WR FRAME0, 0x62", "WR CMD, 0xFD          ; MEAS_HIGH", "", "RD TEMP_L -> 0xDD     ; 221"]).map assemble =
      some [.access 1 0x2062, .access 1 0x26FD, .access 1 0x0900] := by decide +kernel
/-- R84's pseudo-instructions as text; a word that is no statement is refused. -/
theorem test_script_text_pseudo :
    readLines ["RESET", "FRAME 0x12, 0x34, 0x37, 0xAB, 0xCD, 0x6F", "CMD READ_SN", "RD32 SN", "RD 0x1f"] =
      some [.reset, .frame 0x12 0x34 0x37 0xAB 0xCD 0x6F, .cmd .readSn, .rd32Sn, .rd 0x1F] ∧
    readLines ["WR 0x20, 0x00"] = none ∧ readLines ["CMD ILLEGAL"] = none := by decide +kernel
/-- R239: a selected read shows its byte in the same cycle. -/
theorem test_pins_read : Pins.rdata ⟨false, true, false, 0x09, 0x00⟩ measured.block = some 0xDD := by decide +kernel

/-! ### Witnesses: a state and operands that meet the hypotheses of each statement -/

/-- A frame whose halves both verify. -/
abbrev goodFrame : Frame := ⟨0x62, 0x4D, 0x7C, 0x5C, 0x39, 0x9F⟩

theorem goodFrame_verifies : FrameVerifies goodFrame := by decide +kernel

/-- Reset's frame verifies in neither half. -/
theorem resetFrame_fails : ¬ Half0Verifies Block.reset.frame ∧ ¬ Half1Verifies Block.reset.frame := by
  decide +kernel

/-- The good frame, with other values left in the other registers. -/
def reloaded : State :=
  { State.reset with
    block := { Block.reset with frame := goodFrame, status := 0x08, lastCmd := 0xFF, sn := 1, temp := 2 } }

/-- Reset with requests waiting. -/
def waiting (rs : List Request) (rst : Bool) : State := { State.reset with pending := rs, rst := rst }

theorem witness_AssertingResetClearsTheWindow :
    ∃ s rest, State.pending s = .resetLine true :: rest :=
  ⟨waiting [.resetLine true, .access 1 0x0700] false, _, rfl⟩

theorem witness_ResetBlocksTransactionsUntilReleased :
    (∃ s n w rest, State.rst s = true ∧ s.pending = .access n w :: rest) ∧
    (∃ s w rest, State.pending s = .resetLine false :: .access 1 w :: rest) :=
  ⟨⟨waiting [.access 1 0x26FD] true, _, _, _, rfl, rfl⟩,
   ⟨waiting [.resetLine false, .access 1 0x26FD] true, _, _, rfl⟩⟩

theorem witness_WiderAccessIsRefused :
    (∃ s w rest, State.rst s = false ∧ 2 ≠ 1 ∧ s.pending = .access 2 w :: rest) ∧
    (∃ s w rest, State.rst s = false ∧ 0 ≠ 1 ∧ s.pending = .access 0 w :: rest) :=
  ⟨⟨waiting [.access 2 0x0800] false, _, _, rfl, by decide, rfl⟩,
   ⟨waiting [.access 0 0x0800] false, _, _, rfl, by decide, rfl⟩⟩

theorem witness_StepRunsTheDecodedInstruction :
    (∃ s w rest i, State.rst s = false ∧ s.pending = .access 1 w :: rest ∧ decode 14 w.toNat = .ok i) ∧
    (∃ s code rest i, State.rst s = false ∧ s.pending = .access 1 (txnWord true 0x06 code) :: rest ∧
      decode 8 code.toNat = .ok i) ∧
    (∃ s, State.pending s = []) :=
  ⟨⟨waiting [.access 1 0x3FFF] false, _, _, _, rfl, rfl, rfl⟩,
   ⟨waiting [.access 1 (txnWord true 0x06 0xFF)] false, _, _, _, rfl, rfl, rfl⟩, ⟨State.reset, rfl⟩⟩

theorem witness_PlacedWordRunsNext :
    decodeTableWord 16 0x3FFF = some (.wr 0x1F 0xFF) ∧ decodeTableWord 8 0xFF = some (.illegal 0xFF) := by
  decide

theorem witness_DecodeEncodeAgree :
    (Instr.rd 0x1F 0xFF).WellFormed ∧ (Instr.wr 0x06 0x01).WellFormed ∧ (Instr.illegal 0xFF).WellFormed := by
  decide

theorem witness_EveryWordHasOneMeaning :
    0x3FFF < 2 ^ 14 ∧ 0xFF < 2 ^ 8 ∧
    (∃ n w, ¬ (n = 8 ∧ w < 2 ^ 8) ∧ ¬ ((n = 14 ∨ n = 16) ∧ w < 2 ^ 14)) :=
  ⟨by decide, by decide, 16, 2 ^ 14, by decide, by decide⟩

theorem witness_CmdWriteRunsTheSelectedCommand :
    (0x00 : Byte) ∉ namedCodes ∧ (0x03 : Byte) ∉ namedCodes ∧ (0xFF : Byte) ∉ namedCodes := by decide

theorem witness_ReadGivesTheRegisterByte :
    0x12 ≤ (0x12 : Offset).toNat ∧ 0x12 ≤ (0x1F : Offset).toNat := by decide

theorem witness_FrameWriteStoresOneByte : (0x00 : Offset).toNat < 6 ∧ (0x05 : Offset).toNat < 6 ∧
    (0x06 : Offset) ≠ 0x05 := by decide

theorem witness_ReadOnlyAndReservedWritesAreIgnored :
    (0x07 ≤ (0x07 : Offset).toNat ∧ ¬ 0x12 ≤ (0x11 : Offset).toNat) ∧
    (0x07 ≤ (0x12 : Offset).toNat ∧ 0x12 ≤ (0x12 : Offset).toNat) ∧ 0x12 ≤ (0x1F : Offset).toNat := by decide

theorem witness_WindowShowsTheWholeBlock :
    ∀ off, memRead State.reset.block off = memRead Block.reset off := fun _ => rfl

theorem witness_OneChangedByteIsDetected :
    halfOk 0xBE 0xEF 0x92 = true ∧ (0xBF : Byte) ≠ 0xBE ∧ (0xEE : Byte) ≠ 0xEF ∧ (0x93 : Byte) ≠ 0x92 := by
  decide +kernel

theorem witness_ConversionsAreExactFloors :
    humLin 0x0C49 < 0 ∧ 1000 < humLin 0xD94B ∧ (0 ≤ humLin 0x0C4A ∧ humLin 0x0C4A ≤ 1000) ∧
    (0 ≤ humLin 0xD94A ∧ humLin 0xD94A ≤ 1000) := by decide +kernel

/-- Each clause of the admitted set of R147 at its boundary count, with the members it admits. -/
theorem witness_LegacyDrawsAreExactlyTheAdmittedSet :
    (legacyHum 0x0C4A 0x0186 true = 0x0000 ∧ legacyHum 0xD94A 0x0186 true = 0x03E8) ∧
    (legacyHum 0xD94B 0x0186 true = 0x0186 ∧ legacyHum 0xD94B 0x0186 false = 0x03E9) ∧
    (legacyHum 0x0C49 0x0186 true = 0x0186 ∧ legacyHum 0x0C49 0x0186 false = 0xFFFF) := by decide +kernel

theorem witness_ConversionRangesAndMonotony : (0x0000 : Half).toNat ≤ (0xFFFF : Half).toNat := by decide

theorem witness_ThresholdCounts : (3146 : Half).toNat = 3146 ∧ (37 : Half).toNat ≤ 37 ∧
    16853 ≤ (16853 : Half).toNat ∧ (3145 : Half).toNat ≤ 3145 ∧ (55626 : Half).toNat ≤ 55626 ∧
    55627 ≤ (55627 : Half).toNat := by decide

theorem witness_ReadSnAssemblesTheSerialNumber :
    FrameVerifies (loaded 0x62 0x4D 0x7C 0x5C 0x39 0x9F).block.frame ∧
    ¬ FrameVerifies State.reset.block.frame :=
  ⟨goodFrame_verifies, fun h => resetFrame_fails.1 h.1⟩

theorem witness_NormalCommandsConvertTheFrame :
    (Instr.measMed, (0xF6 : Byte)) ∈ [(Instr.measLow, (0xE0 : Byte)), (.measMed, 0xF6), (.measHigh, 0xFD)] ∧
    FrameVerifies (loaded 0x62 0x4D 0x7C 0x5C 0x39 0x9F).block.frame ∧
    ¬ FrameVerifies State.reset.block.frame :=
  ⟨by decide, goodFrame_verifies, fun h => resetFrame_fails.1 h.1⟩

theorem witness_HeaterCommandsConvertTheFrame :
    (Instr.heat200Long, (0x39 : Byte)) ∈
      [(Instr.heat20Short, (0x15 : Byte)), (.heat20Long, 0x1E), (.heat110Short, 0x24),
       (.heat110Long, 0x2F), (.heat200Short, 0x32), (.heat200Long, 0x39)] ∧
    (FrameVerifies (loaded 0x00 0x00 0x81 0xFF 0xFF 0xAC).block.frame ∧
      (loaded 0x00 0x00 0x81 0xFF 0xFF 0xAC).cfg.heaterClamp = .fixed) ∧
    (FrameVerifies (legacyLoaded 0x00 0x00 0x81 0xFF 0xFF 0xAC).block.frame ∧
      (legacyLoaded 0x00 0x00 0x81 0xFF 0xFF 0xAC).cfg.heaterClamp = .legacy) ∧
    ¬ FrameVerifies State.reset.block.frame := by decide +kernel

theorem witness_IllegalCodesOnlyReport :
    (0x00 : Byte) ∉ namedCodes ∧ (0xFF : Byte) ∉ namedCodes ∧ (0x94 : Byte) ∉ commandCodes := by decide

theorem witness_IntegrityFailureKeepsResults :
    (Instr.wr 0x06 0x01).WellFormed ∧ Runs (.wr 0x06 0x01) frameCodes ∧
    Runs .heat200Long frameCodes ∧ ¬ FrameVerifies State.reset.block.frame :=
  ⟨rfl, ⟨0x01, by decide, rfl⟩, ⟨0x39, by decide, rfl⟩, fun h => resetFrame_fails.1 h.1⟩

theorem witness_OneFrameServesBothKinds :
    FrameVerifies (loaded 0x62 0x4D 0x7C 0x5C 0x39 0x9F).block.frame := goodFrame_verifies

theorem witness_HeaterEqualsNormalUnderFixed :
    State.reset.cfg.heaterClamp = .fixed ∧ Runs (.wr 0x06 0x15) heaterCodes ∧ Runs .measLow normalCodes ∧
    (Instr.wr 0x06 0x15).WellFormed ∧ Instr.measLow.WellFormed :=
  ⟨rfl, ⟨0x15, by decide, rfl⟩, ⟨0xE0, by decide, rfl⟩, rfl, rfl⟩

theorem witness_EveryTransactionCompletes :
    ∃ s w rest, State.rst s = false ∧ s.pending = .access 1 w :: rest :=
  ⟨waiting [.access 1 0x3FFF] false, _, _, rfl, rfl⟩

theorem witness_FrameChangesOnlyByWriteOrClear :
    (∃ s t, exec (.wr 0x05 0x01) s = .next t ∧ t.block.frame ≠ s.block.frame) ∧
    (∃ s t, exec .clear s = .next t ∧ t.block.frame ≠ s.block.frame) :=
  ⟨⟨State.reset, _, rfl, by decide⟩, ⟨loaded 1 0 0 0 0 0, _, rfl, by decide⟩⟩

theorem witness_TempAndHumHoldTheLastMeasurement :
    (∃ s t, exec .measLow s = .next t ∧ Runs .measLow normalCodes ∧ t.block.status = 0x01) ∧
    (∃ s t, exec .heat20Long s = .next t ∧ Runs .heat20Long (normalCodes ++ heaterCodes) ∧
      t.block.status ≠ 0x01) ∧
    (∃ s t, exec .heat200Long s = .next t ∧ Runs .heat200Long heaterCodes ∧
      s.cfg.heaterClamp = .legacy ∧ t.block.status = 0x01) ∧
    (∃ s t, exec .clear s = .next t ∧ Runs .clear [0x02]) ∧
    (∃ s t, exec .check s = .next t ∧ ¬ Runs .check (0x02 :: (normalCodes ++ heaterCodes))) :=
  ⟨⟨loaded 0x62 0x4D 0x7C 0x5C 0x39 0x9F, _, rfl, ⟨0xE0, by decide, rfl⟩, by decide +kernel⟩,
   ⟨State.reset, _, rfl, ⟨0x1E, by decide, rfl⟩, by decide +kernel⟩,
   ⟨legacyLoaded 0x00 0x00 0x81 0xFF 0xFF 0xAC, _, rfl, ⟨0x39, by decide, rfl⟩, rfl, by decide +kernel⟩,
   ⟨State.reset, _, rfl, ⟨0x02, by decide, rfl⟩⟩, ⟨State.reset, _, rfl, by
    rintro ⟨v, listed, written⟩
    cases written
    exact absurd listed (by decide)⟩⟩

theorem witness_SerialHoldsTheLastReadSn :
    (∃ s t, exec .readSn s = .next t ∧ Runs .readSn [0x89] ∧ t.block.status = 0x01) ∧
    (∃ s t, exec .readSn s = .next t ∧ Runs .readSn [0x89] ∧ t.block.status ≠ 0x01) ∧
    (∃ s t, exec .clear s = .next t ∧ Runs .clear [0x02]) ∧
    (∃ s t, exec (.rd 0 0) s = .next t ∧ ¬ Runs (.rd 0 0) [0x02, 0x89]) :=
  ⟨⟨loaded 0x12 0x34 0x37 0xAB 0xCD 0x6F, _, rfl, ⟨0x89, by decide, rfl⟩, by decide +kernel⟩,
   ⟨State.reset, _, rfl, ⟨0x89, by decide, rfl⟩, by decide +kernel⟩,
   ⟨State.reset, _, rfl, ⟨0x02, by decide, rfl⟩⟩, ⟨State.reset, _, rfl, fun ⟨_, _, written⟩ => nomatch written⟩⟩

theorem witness_ComputedCrcsAreKeptForTheHost :
    (∃ s t, exec .check s = .next t ∧ Runs .check frameCodes) ∧
    (∃ s t, exec .clear s = .next t ∧ Runs .clear [0x02]) ∧
    (∃ s t, exec (.illegal 0x00) s = .next t ∧ ¬ Runs (.illegal 0x00) commandCodes) :=
  ⟨⟨State.reset, _, rfl, ⟨0x01, by decide, rfl⟩⟩, ⟨State.reset, _, rfl, ⟨0x02, by decide, rfl⟩⟩,
   ⟨State.reset, _, rfl, by
    rintro ⟨v, listed, written⟩
    cases written
    exact absurd listed (by decide)⟩⟩

theorem witness_OnlyCommandsWriteStatus :
    (∃ s t, exec (.wr 0x00 0xFF) s = .next t ∧ cmdWritten (.wr 0x00 0xFF) = none) ∧
    (∃ s t s' t', cmdWritten .check = some 0x01 ∧ s.block.frame = s'.block.frame ∧
      s.block.status ≠ s'.block.status ∧ exec .check s = .next t ∧ exec .check s' = .next t') :=
  ⟨⟨State.reset, _, rfl, rfl⟩,
   ⟨loaded 0x62 0x4D 0x7C 0x5C 0x39 0x9F, _, reloaded, _, rfl, rfl, by decide, rfl, rfl⟩⟩

theorem witness_InstructionsKeepTheSurroundings :
    ∃ s t, Instr.heat200Long.WellFormed ∧ exec .heat200Long s = .next t ∧
      (∀ off data, Instr.heat200Long ≠ .rd off data) ∧ t.draws ≠ s.draws :=
  ⟨legacyLoaded 0x00 0x00 0x81 0xFF 0xFF 0xAC, _, rfl, rfl, nofun, by decide +kernel⟩

/-- Two states that differ in what no command reads. -/
theorem reloaded_agrees :
    (loaded 0x62 0x4D 0x7C 0x5C 0x39 0x9F).block ≠ reloaded.block ∧
    (loaded 0x62 0x4D 0x7C 0x5C 0x39 0x9F).block.frame = reloaded.block.frame ∧
    (loaded 0x62 0x4D 0x7C 0x5C 0x39 0x9F).cfg = reloaded.cfg := by decide

theorem witness_CommandsReadOnlyTheFrame :
    (∃ t t', Runs .measLow (normalCodes ++ heaterCodes) ∧ ¬ Runs .measLow heaterCodes ∧
      exec .measLow (loaded 0x62 0x4D 0x7C 0x5C 0x39 0x9F) = .next t ∧ exec .measLow reloaded = .next t' ∧
      FrameVerifies reloaded.block.frame) ∧
    (∃ t t', Runs .readSn [0x89] ∧
      exec .readSn (loaded 0x62 0x4D 0x7C 0x5C 0x39 0x9F) = .next t ∧ exec .readSn reloaded = .next t') ∧
    (∃ t t', Runs .clear [0x02] ∧
      exec .clear (loaded 0x62 0x4D 0x7C 0x5C 0x39 0x9F) = .next t ∧ exec .clear reloaded = .next t') ∧
    (∃ s s' t t', Runs .heat200Long heaterCodes ∧ s.cfg.heaterClamp = .legacy ∧ s.block ≠ s'.block ∧
      s.block.frame = s'.block.frame ∧ s.cfg = s'.cfg ∧ s.block.hum = s'.block.hum ∧ s.draws = s'.draws ∧
      FrameVerifies s.block.frame ∧ exec .heat200Long s = .next t ∧ exec .heat200Long s' = .next t') :=
  ⟨⟨_, _, ⟨0xE0, by decide, rfl⟩, (by
    rintro ⟨v, listed, written⟩
    cases written
    exact absurd listed (by decide)), by rfl, by rfl, goodFrame_verifies⟩,
   ⟨_, _, ⟨0x89, by decide, rfl⟩, by rfl, by rfl⟩,
   ⟨_, _, ⟨0x02, by decide, rfl⟩, by rfl, by rfl⟩,
   ⟨legacyLoaded 0x00 0x00 0x81 0xFF 0xFF 0xAC,
    { legacyLoaded 0x00 0x00 0x81 0xFF 0xFF 0xAC with
      block := { (legacyLoaded 0x00 0x00 0x81 0xFF 0xFF 0xAC).block with sn := 1, status := 0x08 } },
    _, _, ⟨0x39, by decide, rfl⟩, rfl, by decide, rfl, rfl, rfl, rfl, by decide +kernel, by rfl, by rfl⟩⟩

theorem witness_RepeatingChangesNothing :
    (∃ s t, Instr.heat20Short.WellFormed ∧ Runs .heat20Short heaterCodes ∧ s.cfg.heaterClamp = .fixed ∧
      exec .heat20Short s = .next t) ∧
    (∃ s t, s.cfg.heaterClamp = .legacy ∧ ¬ Runs .clear heaterCodes ∧ exec .clear s = .next t) :=
  ⟨⟨loaded 0x62 0x4D 0x7C 0x5C 0x39 0x9F, _, rfl, ⟨0x15, by decide, rfl⟩, rfl, rfl⟩,
   ⟨legacyLoaded 0 0 0 0 0 0, _, rfl, by
    rintro ⟨v, listed, written⟩
    cases written
    exact absurd listed (by decide), rfl⟩⟩

theorem witness_TransactionsTakeEffectInOrder :
    ∃ s, State.rst s = false ∧ s.pending = transactions [0x2062, 0x26FD] ++ [.resetLine true] :=
  ⟨waiting [.access 1 0x2062, .access 1 0x26FD, .resetLine true] false, rfl, rfl⟩

/-- Reset, with a CHECK waiting, meets every premise of the invariant statements. -/
theorem witness_StepKeepsStatusLegal :
    ∃ s t, StatusLegal s.block ∧ step s = .next t ∧ t.block.status = 0x06 :=
  ⟨waiting [.access 1 0x2601] false, _, by decide, rfl, by decide +kernel⟩

theorem witness_StepKeepsOutcomeAgreement :
    ∃ s t, OutcomeAgrees s.block ∧ step s = .next t ∧ t.block.status = 0x08 :=
  ⟨waiting [.access 1 0x2694] false, _,
   ⟨by decide, fun _ => by decide, fun h => absurd h (by decide), fun h => absurd h (by decide)⟩, rfl,
   by decide +kernel⟩

theorem witness_StepKeepsResultsInRange :
    ∃ s t, InRange s ∧ step s = .next t ∧ t.block.hum = 0x03E8 :=
  ⟨{ loaded 0xFF 0xFF 0xAC 0xFF 0xFF 0xAC with pending := [.access 1 0x26FD] }, _,
   ⟨by decide, by decide, fun _ => by decide, by decide, by decide⟩, rfl, by decide +kernel⟩

theorem witness_StepKeepsResetHolding :
    ∃ s t, ResetHolds s ∧ step s = .next t ∧ t.rst = true :=
  ⟨waiting [.resetLine true] false, _, (fun high => nomatch high), rfl, rfl⟩

theorem witness_PseudoInstructionsExpand :
    commandCode .measHigh = some 0xFD ∧ commandCode (.illegal 0x00) = some 0x00 := ⟨rfl, rfl⟩

theorem witness_ScriptResetPerformsReset : State.reset.pending = [] := rfl

theorem witness_ClockEdgeIsTheTransaction : State.reset.pending = [] := rfl

theorem witness_WindowAddressesAreThirtyTwo :
    windowOffset Config.default 31 = some 0x1F ∧ windowOffset Config.default 32 = none := by decide

end Sys2Proof.Tests
end

section
/-! The state after reset, register by register (spec R36). -/

namespace Sys2Proof.Machine

/-- The registers after reset do not depend on the configuration (R230, R232). -/
@[simp] theorem State.resetWith_block (cfg : Config) : (State.resetWith cfg).block = Block.reset := rfl
@[simp] theorem State.reset_block : State.reset.block = Block.reset := State.resetWith_block Config.default

@[simp] theorem Block.reset_frame : Block.reset.frame = ⟨0, 0, 0, 0, 0, 0⟩ := rfl
@[simp] theorem Block.reset_lastCmd : Block.reset.lastCmd = 0 := rfl
@[simp] theorem Block.reset_status : Block.reset.status = 0 := rfl
@[simp] theorem Block.reset_temp : Block.reset.temp = 0 := rfl
@[simp] theorem Block.reset_hum : Block.reset.hum = 0 := rfl
@[simp] theorem Block.reset_sn : Block.reset.sn = 0 := rfl
@[simp] theorem Block.reset_crc0 : Block.reset.crc0 = 0 := rfl
@[simp] theorem Block.reset_crc1 : Block.reset.crc1 = 0 := rfl

/-- Settles O1: the block of `State.reset` is `Block.reset`, whose registers are all zero. -/
theorem resetLeavesEveryRegisterZero : Obligations.ResetLeavesEveryRegisterZero := by
  unfold Obligations.ResetLeavesEveryRegisterZero
  rw [State.reset_block]
  simp only [Block.reset_frame, Block.reset_lastCmd, Block.reset_status, Block.reset_temp,
    Block.reset_hum, Block.reset_sn, Block.reset_crc0, Block.reset_crc1, and_self]

end Sys2Proof.Machine
end

section
/-! The register window: the byte at each offset, a read as an instruction, and the results joined from their
bytes (spec R52, R55). -/

namespace Sys2Proof.Machine

/-! ### The byte at each register offset (R20, R52) -/

@[simp] theorem memRead_frame0 (b : Block) : memRead b 0x00 = b.frame.f0 := rfl
@[simp] theorem memRead_frame1 (b : Block) : memRead b 0x01 = b.frame.f1 := rfl
@[simp] theorem memRead_frame2 (b : Block) : memRead b 0x02 = b.frame.f2 := rfl
@[simp] theorem memRead_frame3 (b : Block) : memRead b 0x03 = b.frame.f3 := rfl
@[simp] theorem memRead_frame4 (b : Block) : memRead b 0x04 = b.frame.f4 := rfl
@[simp] theorem memRead_frame5 (b : Block) : memRead b 0x05 = b.frame.f5 := rfl
@[simp] theorem memRead_cmd (b : Block) : memRead b 0x06 = b.lastCmd := rfl
@[simp] theorem memRead_status (b : Block) : memRead b 0x07 = b.status := rfl
@[simp] theorem memRead_tempH (b : Block) : memRead b 0x08 = b.temp.extractLsb' 8 8 := rfl
@[simp] theorem memRead_tempL (b : Block) : memRead b 0x09 = b.temp.extractLsb' 0 8 := rfl
@[simp] theorem memRead_humH (b : Block) : memRead b 0x0A = b.hum.extractLsb' 8 8 := rfl
@[simp] theorem memRead_humL (b : Block) : memRead b 0x0B = b.hum.extractLsb' 0 8 := rfl
@[simp] theorem memRead_sn3 (b : Block) : memRead b 0x0C = b.sn.extractLsb' 24 8 := rfl
@[simp] theorem memRead_sn2 (b : Block) : memRead b 0x0D = b.sn.extractLsb' 16 8 := rfl
@[simp] theorem memRead_sn1 (b : Block) : memRead b 0x0E = b.sn.extractLsb' 8 8 := rfl
@[simp] theorem memRead_sn0 (b : Block) : memRead b 0x0F = b.sn.extractLsb' 0 8 := rfl
@[simp] theorem memRead_crc0 (b : Block) : memRead b 0x10 = b.crc0 := rfl
@[simp] theorem memRead_crc1 (b : Block) : memRead b 0x11 = b.crc1 := rfl

/-! ### Reading -/

/-- RD is a bus read in every state; its DATA field is ignored (R52, R70). -/
theorem exec_rd (off : Offset) (data : Byte) (s : State) :
    exec (.rd off data) s = .next (busRead off s) := rfl

/-- Settles O13: offset by offset, with `memRead_reserved` above 0x11; a read is `busRead`, which keeps the block. -/
theorem readGivesTheRegisterByte : Obligations.ReadGivesTheRegisterByte := by
  unfold Obligations.ReadGivesTheRegisterByte
  constructor
  · intro b
    exact ⟨memRead_frame0 b, memRead_frame1 b, memRead_frame2 b, memRead_frame3 b, memRead_frame4 b,
      memRead_frame5 b, memRead_cmd b, memRead_status b, memRead_tempH b, memRead_tempL b,
      memRead_humH b, memRead_humL b, memRead_sn3 b, memRead_sn2 b, memRead_sn1 b, memRead_sn0 b,
      memRead_crc0 b, memRead_crc1 b, memRead_reserved b⟩
  · intro off data s
    exact ⟨busRead off s, exec_rd off data s, busRead_block off s⟩

/-! ### The results are big-endian (R55) -/

/-- A half is its high byte followed by its low byte. -/
theorem half_eq_append_bytes (x : Half) : x.extractLsb' 8 8 ++ x.extractLsb' 0 8 = x := by
  have both : x.extractLsb' 8 8 ++ x.extractLsb' 0 8 = x.extractLsb' 0 16 :=
    BitVec.extractLsb'_append_extractLsb'_eq_extractLsb' rfl
  rw [both, BitVec.extractLsb'_eq_self]

/-- A serial number is its four bytes, most significant first: each join of adjacent fields is one longer field. -/
theorem serial_eq_append_bytes (x : Serial) :
    x.extractLsb' 24 8 ++ x.extractLsb' 16 8 ++ x.extractLsb' 8 8 ++ x.extractLsb' 0 8 = x := by
  have top_two : x.extractLsb' 24 8 ++ x.extractLsb' 16 8 = x.extractLsb' 16 16 :=
    BitVec.extractLsb'_append_extractLsb'_eq_extractLsb' rfl
  have top_three : x.extractLsb' 16 16 ++ x.extractLsb' 8 8 = x.extractLsb' 8 24 :=
    BitVec.extractLsb'_append_extractLsb'_eq_extractLsb' rfl
  have all_four : x.extractLsb' 8 24 ++ x.extractLsb' 0 8 = x.extractLsb' 0 32 :=
    BitVec.extractLsb'_append_extractLsb'_eq_extractLsb' rfl
  rw [top_two, top_three, all_four, BitVec.extractLsb'_eq_self]

/-- Settles O15: the bytes at rising offsets are those of the register from the top down. -/
theorem resultsReadBigEndian : Obligations.ResultsReadBigEndian := by
  unfold Obligations.ResultsReadBigEndian
  intro b
  simp only [memRead_tempH, memRead_tempL, memRead_humH, memRead_humL, memRead_sn3, memRead_sn2,
    memRead_sn1, memRead_sn0]
  exact ⟨half_eq_append_bytes b.temp, half_eq_append_bytes b.hum, serial_eq_append_bytes b.sn⟩

end Sys2Proof.Machine
end

section
/-! The transaction word: its number and its three fields (spec R70). -/

namespace Sys2Proof

open Sys2Proof.Machine

/-- The word read as a number is the number R70 gives. -/
theorem txnWord_toNat (write : Bool) (off : Offset) (data : Byte) :
    (txnWord write off data).toNat = txnNumber write off data :=
  calc (txnWord write off data).toNat
    _ = (write.toNat <<< 5 ||| off.toNat) <<< 8 ||| data.toNat := by
      simp only [txnWord, BitVec.toNat_append, BitVec.toNat_ofBool]
    _ = write.toNat <<< 13 ||| off.toNat <<< 8 ||| data.toNat := by
      rw [Nat.shiftLeft_or_distrib, ← Nat.shiftLeft_add]

/-- Bit 13 is the W field. -/
@[simp] theorem txnWord_writeBit (write : Bool) (off : Offset) (data : Byte) :
    (txnWord write off data).getLsbD 13 = write := by
  have above_fields : (txnWord write off data).getLsbD 13 = (BitVec.ofBool write).getLsbD 0 := by
    simp only [txnWord, BitVec.getLsbD_append, Nat.reduceLT, Nat.reduceSub, if_false]
  rw [above_fields]
  cases write <;> rfl

/-- Bits 12:8 are the OFF field. -/
@[simp] theorem txnWord_off (write : Bool) (off : Offset) (data : Byte) :
    (txnWord write off data).extractLsb' 8 5 = off := by
  have above_data : (txnWord write off data).extractLsb' 8 5 =
      (BitVec.ofBool write ++ off).extractLsb' 0 5 := BitVec.extractLsb'_append_eq_of_le (Nat.le_refl 8)
  rw [above_data, BitVec.extractLsb'_append_eq_right]

/-- Bits 7:0 are the DATA field. -/
@[simp] theorem txnWord_data (write : Bool) (off : Offset) (data : Byte) :
    (txnWord write off data).extractLsb' 0 8 = data :=
  BitVec.extractLsb'_append_eq_right

/-- A word made of its fields decodes to the transaction that its W field names, with those fields. -/
@[simp] theorem decodeTxn_txnWord (write : Bool) (off : Offset) (data : Byte) :
    decodeTxn (txnWord write off data) = if write then .wr off data else .rd off data := by
  simp only [decodeTxn, txnWord_writeBit, txnWord_off, txnWord_data]

/-- Settles O8: each field reads back from the word, decoding reads those fields, and a read drops DATA. -/
theorem transactionWordIsItsThreeFields : Obligations.TransactionWordIsItsThreeFields := by
  unfold Obligations.TransactionWordIsItsThreeFields
  constructor
  · intro write off data
    exact ⟨txnWord_toNat write off data, txnWord_writeBit write off data, txnWord_off write off data,
      txnWord_data write off data⟩
  · intro off data
    refine ⟨decodeTxn_txnWord true off data, decodeTxn_txnWord false off data, fun s => ?_⟩
    rw [exec_rd, exec_rd]

end Sys2Proof
end

section
/-! The command dispatch: a write to CMD runs the instruction that its value decodes to (spec R53, R72, R78). -/

namespace Sys2Proof.Machine

/-- A write to CMD is Execute of its value (R53). -/
theorem exec_wr_cmd (v : Byte) (s : State) : exec (.wr 0x06 v) s = execute v s := rfl

/-- For each row of the command table Execute of the row's code runs the row's instruction (R72). -/
theorem execute_of_row (s : State) : ∀ row ∈ commandTable, execute row.1 s = exec row.2 s := by
  simp only [commandTable, List.forall_mem_cons]
  exact ⟨rfl, rfl, rfl, rfl, rfl, rfl, rfl, rfl, rfl, rfl, rfl, rfl, rfl, nofun⟩

/-- Execute of a code that no row matches is the illegal-command action (R72, R78). Every other branch of the
dispatch fixes the code's number at a named one. -/
theorem execute_of_not_named (v : Byte) (s : State) (unnamed : v ∉ namedCodes) :
    execute v s = exec (.illegal v) s := by
  have unnamed_number : v.toNat ∉ namedCodes.map BitVec.toNat := by
    rw [List.mem_map_of_injective fun _ _ => BitVec.eq_of_toNat_eq]
    exact unnamed
  unfold execute
  split
  case h_14 => rfl
  all_goals
    next number =>
      rw [number] at unnamed_number
      exact absurd (by decide) unnamed_number

/-- Settles O11: the named codes are the rows of the command table, and every other code runs ILLEGAL. -/
theorem cmdWriteRunsTheSelectedCommand : Obligations.CmdWriteRunsTheSelectedCommand := by
  unfold Obligations.CmdWriteRunsTheSelectedCommand
  intro s
  simp only [exec_wr_cmd]
  have rows := execute_of_row s
  simp only [commandTable, List.forall_mem_cons] at rows
  obtain ⟨check, clear, heat20Short, heat20Long, heat110Short, heat110Long, heat200Short, heat200Long,
    readSn, softReset, measLow, measMed, measHigh, -⟩ := rows
  exact ⟨check, clear, heat20Short, heat20Long, heat110Short, heat110Long, heat200Short, heat200Long,
    readSn, measLow, measMed, measHigh, softReset, fun v => execute_of_not_named v s⟩

end Sys2Proof.Machine
end

section
/-! The operands of the commands as numbers (spec R79, R80). -/

namespace Sys2Proof.Machine

/-- A byte joined below a word adds to 256 times the word. -/
theorem append_byte_toNat {n : Nat} (x : BitVec n) (b : Byte) :
    (x ++ b).toNat = 256 * x.toNat + b.toNat := by
  rw [BitVec.toNat_append, ← Nat.shiftLeft_add_eq_or_of_lt b.isLt, Nat.shiftLeft_eq, Nat.mul_comm]

theorem rawT_toNat (f : Frame) : (rawT f).toNat = 256 * f.f0.toNat + f.f1.toNat :=
  append_byte_toNat f.f0 f.f1

theorem rawH_toNat (f : Frame) : (rawH f).toNat = 256 * f.f3.toNat + f.f4.toNat :=
  append_byte_toNat f.f3 f.f4

/-- The serial number is raw_t followed by raw_h's two bytes (R80). -/
theorem snVal_toNat (f : Frame) :
    (snVal f).toNat =
      2 ^ 24 * f.f0.toNat + 2 ^ 16 * f.f1.toNat + 2 ^ 8 * f.f3.toNat + f.f4.toNat := by
  have low_byte : (snVal f).toNat = 256 * (f.f0 ++ f.f1 ++ f.f3).toNat + f.f4.toNat :=
    append_byte_toNat _ f.f4
  rw [low_byte, append_byte_toNat, append_byte_toNat]
  omega

/-- Settles O20: each operand joins one byte at a time, so each join multiplies what stands above it by 256. -/
theorem operandsAreAssembledBigEndian : Obligations.OperandsAreAssembledBigEndian := by
  unfold Obligations.OperandsAreAssembledBigEndian
  intro f
  exact ⟨rawT_toNat f, rfl, rawH_toNat f, rfl, snVal_toNat f⟩

end Sys2Proof.Machine
end

section
/-! The frame check as a command of its own (spec R104, R105). -/

namespace Sys2Proof.Machine

open Sys2Proof.Safety

/-- CHECK, as a whole state: FrameCheck is all it does, so both outcomes of the check leave the checked registers
(R105). -/
theorem exec_check (s : State) :
    exec .check s = .next { s with block := checked 0x01 s.block, rdata := none } :=
  calc exec .check s
    _ = .next (afterFrameCheck id (beginCommand 0x01 s)) := rfl
    _ = .next { s with block := checked 0x01 s.block, rdata := none } := by
      rw [afterFrameCheck_begin, id_eq, ite_self]

/-- Settles O30: whether or not the frame verifies, CHECK leaves the checked registers (`exec_check`). -/
theorem checkVerifiesTheFrame : Obligations.CheckVerifiesTheFrame := by
  unfold Obligations.CheckVerifiesTheFrame
  intro s
  exact ⟨_, exec_check s, rfl⟩

end Sys2Proof.Machine
end

section
/-! READ_SN (spec R120). -/

namespace Sys2Proof.Machine

open Sys2Proof.Safety

/-- READ_SN, as a whole state: the frame check with code 0x89, and SN taken from the frame only where both halves
verify (R120). The check leaves the frame as it was, so the serial number is that of the frame before. -/
theorem exec_readSn (s : State) :
    exec .readSn s =
      .next { s with
        block :=
          if FrameVerifies s.block.frame then { checked 0x89 s.block with sn := snVal s.block.frame }
          else checked 0x89 s.block
        rdata := none } := by
  have runs : exec .readSn s = .next (afterFrameCheck snResult (beginCommand 0x89 s)) := rfl
  rw [runs, afterFrameCheck_begin]
  by_cases verified : FrameVerifies s.block.frame
  · rw [if_pos verified, if_pos verified]; rfl
  · rw [if_neg verified, if_neg verified]

/-- Settles O31: the block that `exec_readSn` gives, in each case of the frame check. -/
theorem readSnAssemblesTheSerialNumber : Obligations.ReadSnAssemblesTheSerialNumber := by
  unfold Obligations.ReadSnAssemblesTheSerialNumber
  intro s
  refine ⟨_, exec_readSn s, fun verified => ?_, fun fails => ?_⟩
  · exact if_pos verified
  · exact if_neg fails

end Sys2Proof.Machine
end

section
/-! The instructions that write CMD: each runs Execute of the code it writes (spec R53, R72). -/

namespace Sys2Proof.Machine

open Sys2Proof.Safety

/-- A well-formed instruction that writes CMD is Execute of the code it writes, as a command and as a bus write
(R53, R72). For ILLEGAL, well-formedness is what keeps its code off the named rows. -/
theorem exec_of_cmdWritten (i : Instr) (v : Byte) (s : State) (wellFormed : i.WellFormed)
    (written : cmdWritten i = some v) : exec i s = execute v s := by
  cases i with
  | rd off data => nomatch written
  | wr off data =>
    by_cases cmd : off = 0x06
    · subst cmd
      cases written
      exact exec_wr_cmd v s
    · rw [cmdWritten, if_neg cmd] at written
      nomatch written
  | illegal code =>
    cases written
    have unnamed : v ∉ namedCodes := by simpa [Instr.WellFormed, Instr.wellFormed] using wellFormed
    exact (execute_of_not_named v s unnamed).symm
  | _ =>
    cases written
    rfl

/-- Each normal command writes its own code (R72, R73). -/
theorem normal_rows_write :
    ∀ row ∈ ([(.measLow, 0xE0), (.measMed, 0xF6), (.measHigh, 0xFD)] : List (Instr × Byte)),
      row.1.WellFormed ∧ cmdWritten row.1 = some row.2 ∧ row.2 ∈ normalCodes := by
  decide

/-- Each heater command writes its own code (R72, R74). -/
theorem heater_rows_write :
    ∀ row ∈ ([(.heat20Short, 0x15), (.heat20Long, 0x1E), (.heat110Short, 0x24), (.heat110Long, 0x2F),
        (.heat200Short, 0x32), (.heat200Long, 0x39)] : List (Instr × Byte)),
      row.1.WellFormed ∧ cmdWritten row.1 = some row.2 ∧ row.2 ∈ heaterCodes := by
  decide

/-- The normal codes run TH(NORMAL) (R143 to R145). -/
theorem execute_of_normal (s : State) :
    ∀ v ∈ normalCodes, execute v s = .next (th .normal (beginCommand v s)) := by
  simp only [normalCodes, List.forall_mem_cons]
  exact ⟨rfl, rfl, rfl, nofun⟩

/-- The heater codes run TH(HEATER) (R148 to R153). -/
theorem execute_of_heater (s : State) :
    ∀ v ∈ heaterCodes, execute v s = .next (th .heater (beginCommand v s)) := by
  simp only [heaterCodes, List.forall_mem_cons]
  exact ⟨rfl, rfl, rfl, rfl, rfl, rfl, nofun⟩

end Sys2Proof.Machine
end

section
/-! The T/H commands: TH(mode) after the write to CMD, in each outcome of the frame check and each form of HUM
(spec R142 to R153). -/

namespace Sys2Proof.Machine

open Sys2Proof.Safety

/-! ### The two settings of HUM -/

/-- Whatever the draw, the LEGACY result is a value R147 admits. -/
theorem legacyHum_admitted (raw old : Half) (keepOld : Bool) :
    LegacyAdmits raw old (legacyHum raw old keepOld) := by
  have kept_or_unclamped (out : ¬ (0 ≤ humLin raw ∧ humLin raw ≤ 1000)) :
      legacyHum raw old keepOld = old ∨ legacyHum raw old keepOld = s16 (humLin raw) := by
    rw [legacyHum_out_of_range raw old keepOld out]
    exact ite_eq_or_eq _ _ _
  have narrowed_mod : BitVec.ofInt 16 (humLin raw % 65536) = s16 (humLin raw) :=
    BitVec.eq_of_toNat_eq (by simp only [s16, BitVec.toNat_ofInt]; omega)
  refine ⟨fun ⟨low, high⟩ => ?_, fun above => ?_, fun below => ?_⟩
  · exact legacyHum_in_range raw old keepOld low high
  · exact kept_or_unclamped (by omega)
  · rw [narrowed_mod]
    exact kept_or_unclamped (by omega)

/-! ### TH(mode) as a whole state -/

/-- The registers after a T/H command with this code has passed its check and put this value in HUM (R142). -/
def converted (code : Byte) (hum : Half) (b : Block) : Block :=
  { checked code b with temp := s16 (convT (rawT b.frame)), hum := hum }

/-- Where a half fails, TH(mode) is the check alone, in either mode. -/
theorem th_of_fails (m : ThMode) (code : Byte) (s : State) (fails : ¬ FrameVerifies s.block.frame) :
    th m (beginCommand code s) = { s with block := checked code s.block, rdata := none } := by
  rw [th, afterFrameCheck_begin, if_neg fails]

/-- Where both halves verify, TH(NORMAL), and TH(HEATER) under FIXED, convert both operands (R140, R141, R146). -/
theorem th_of_clamped (m : ThMode) (code : Byte) (s : State) (verified : FrameVerifies s.block.frame)
    (clamped : m = .normal ∨ s.cfg.heaterClamp = .fixed) :
    th m (beginCommand code s) =
      { s with block := converted code (s16 (convH (rawH s.block.frame))) s.block, rdata := none } := by
  rw [th, afterFrameCheck_begin, if_pos verified]
  exact thResults_clamped m _ clamped

/-- Where both halves verify, TH(HEATER) under LEGACY takes a draw for HUM (R147). -/
theorem th_of_drawn (code : Byte) (s : State) (verified : FrameVerifies s.block.frame)
    (legacy : s.cfg.heaterClamp = .legacy) :
    th .heater (beginCommand code s) =
      { s with
        block :=
          converted code (legacyHum (rawH s.block.frame) s.block.hum (Config.legacyDraw s.draws)) s.block
        draws := s.draws + 1
        rdata := none } := by
  rw [th, afterFrameCheck_begin, if_pos verified]
  exact thResults_drawn _ legacy

/-! ### The statements -/

/-- Settles O32: each normal command is TH(NORMAL) with its own code, which clamps HUM under either setting. -/
theorem normalCommandsConvertTheFrame : Obligations.NormalCommandsConvertTheFrame := by
  unfold Obligations.NormalCommandsConvertTheFrame
  intro i code row s
  obtain ⟨wellFormed, written, normal⟩ := normal_rows_write (i, code) row
  rw [exec_of_cmdWritten i code s wellFormed written, execute_of_normal s code normal]
  refine ⟨_, rfl, fun verified => ?_, fun fails => ?_⟩
  · rw [th_of_clamped .normal code s verified (.inl rfl)]
    rfl
  · rw [th_of_fails .normal code s fails]

/-- Settles O33: each heater command is TH(HEATER) with its own code; FIXED clamps HUM and LEGACY draws an
admitted value (`legacyHum_admitted`). -/
theorem heaterCommandsConvertTheFrame : Obligations.HeaterCommandsConvertTheFrame := by
  unfold Obligations.HeaterCommandsConvertTheFrame
  intro i code row s
  obtain ⟨wellFormed, written, heater⟩ := heater_rows_write (i, code) row
  rw [exec_of_cmdWritten i code s wellFormed written, execute_of_heater s code heater]
  refine ⟨_, rfl, fun verified => ?_, fun fails => ?_⟩
  · cases setting : s.cfg.heaterClamp with
    | fixed =>
      rw [th_of_clamped .heater code s verified (.inr setting)]
      exact ⟨_, rfl, fun _ => rfl, nofun⟩
    | legacy =>
      rw [th_of_drawn code s verified setting]
      exact ⟨_, rfl, nofun, fun _ => legacyHum_admitted _ _ _⟩
  · rw [th_of_fails .heater code s fails]

/-- Settles O38: under FIXED both modes leave the same results on a frame that verifies, and only the check
otherwise; the two codes differ in LAST_CMD alone. -/
theorem heaterEqualsNormalUnderFixed : Obligations.HeaterEqualsNormalUnderFixed := by
  unfold Obligations.HeaterEqualsNormalUnderFixed
  intro i j s fixed ⟨v, heater, writtenV⟩ ⟨w, normal, writtenW⟩ wellFormedI wellFormedJ
  rw [exec_of_cmdWritten i v s wellFormedI writtenV, execute_of_heater s v heater,
    exec_of_cmdWritten j w s wellFormedJ writtenW, execute_of_normal s w normal]
  refine ⟨_, _, rfl, rfl, ?_⟩
  by_cases verified : FrameVerifies s.block.frame
  · rw [th_of_clamped .heater v s verified (.inr fixed), th_of_clamped .normal w s verified (.inl rfl)]
    rfl
  · rw [th_of_fails .heater v s verified, th_of_fails .normal w s verified]
    rfl

end Sys2Proof.Machine
end

section
/-! CLEAR (spec R170) and the codes that select no command (spec R171, R204). -/

namespace Sys2Proof.Machine

open Sys2Proof.Safety

/-! ### CLEAR -/

/-- CLEAR, as a whole state: the reset registers, with LAST_CMD at CLEAR's own code (R170). -/
theorem exec_clear (s : State) :
    exec .clear s = .next { s with block := { Block.reset with lastCmd := 0x02 }, rdata := none } :=
  calc exec .clear s
    _ = .next (clearRegisters (beginCommand 0x02 s)) := rfl
    _ = .next { s with block := { Block.reset with lastCmd := 0x02 }, rdata := none } := rfl

/-- After reset every offset of the window reads zero (R36, R52). -/
@[simp] theorem memRead_reset (off : Offset) : memRead Block.reset off = 0x00 := by
  unfold memRead
  split <;> rfl

/-- LAST_CMD is read at offset 0x06 alone (R23, R52). -/
theorem memRead_with_lastCmd (code : Byte) (b : Block) (off : Offset) (notCmd : off ≠ 0x06) :
    memRead { b with lastCmd := code } off = memRead b off := by
  unfold memRead
  split
  case h_7 cmd => exact absurd (BitVec.eq_of_toNat_eq cmd) notCmd
  all_goals rfl

/-- Settles O34: CLEAR leaves the reset registers but for LAST_CMD (`exec_clear`), which only 0x06 reads. -/
theorem clearRestoresResetValuesButLastCmd : Obligations.ClearRestoresResetValuesButLastCmd := by
  unfold Obligations.ClearRestoresResetValuesButLastCmd
  intro s
  refine ⟨_, exec_clear s, memRead_cmd _, fun off notCmd => ?_, rfl⟩
  rw [memRead_with_lastCmd 0x02 Block.reset off notCmd, memRead_reset]

/-! ### The illegal-command action -/

/-- ILLEGAL of any code, as a whole state: only STATUS and LAST_CMD are written (R171, R204). -/
theorem exec_illegal (v : Byte) (s : State) :
    exec (.illegal v) s =
      .next { s with block := { s.block with lastCmd := v, status := 0x08 }, rdata := none } :=
  calc exec (.illegal v) s
    _ = .next (illegalAction v (beginCommand v s)) := rfl
    _ = .next { s with block := { s.block with lastCmd := v, status := 0x08 }, rdata := none } := rfl

/-- SOFT_RESET does in the block what ILLEGAL does with its code (R76, R171). -/
theorem exec_softReset (s : State) : exec .softReset s = exec (.illegal 0x94) s := rfl

/-- SOFT_RESET's code is the one named code that selects no command (R72, R76). -/
theorem named_selects_or_softReset : ∀ v ∈ namedCodes, v ∈ commandCodes ∨ v = 0x94 := by decide

/-- Execute of a code outside the twelve is the illegal-command action, with a row of its own (0x94) or by the
default (R72, R78). -/
theorem execute_of_not_command (v : Byte) (s : State) (selectsNone : v ∉ commandCodes) :
    execute v s = exec (.illegal v) s := by
  by_cases named : v ∈ namedCodes
  · obtain rfl : v = 0x94 := (named_selects_or_softReset v named).resolve_left selectsNone
    have softReset_row : execute 0x94 s = exec .softReset s :=
      execute_of_row s (0x94, .softReset) (by decide)
    rw [softReset_row, exec_softReset]
  · exact execute_of_not_named v s named

/-- Settles O35: each of the three spellings is ILLEGAL of the code, whose state `exec_illegal` gives. -/
theorem illegalCodesOnlyReport : Obligations.IllegalCodesOnlyReport := by
  unfold Obligations.IllegalCodesOnlyReport
  refine ⟨fun s => ?_, fun v s _ => ?_, fun v s selectsNone => ?_⟩
  · rw [exec_softReset]
    exact ⟨_, exec_illegal 0x94 s, rfl⟩
  · exact ⟨_, exec_illegal v s, rfl⟩
  · rw [exec_wr_cmd, execute_of_not_command v s selectsNone]
    exact ⟨_, exec_illegal v s, rfl⟩

end Sys2Proof.Machine
end

section
/-! A frame command on a frame that does not verify: the cause it raises in STATUS and the registers it keeps
(spec R200 to R202). -/

namespace Sys2Proof.Machine

open Sys2Proof.Safety

/-- Each bit of STATUS after IntegrityFailure, from the two parts of the cause (R25, R200). -/
theorem status_of_integrityFailure (e0 e1 : Bool) :
    statusOk (causeStatus (.integrityFailure e0 e1)) = false ∧
    statusCmdErr (causeStatus (.integrityFailure e0 e1)) = false ∧
    statusCrc0Err (causeStatus (.integrityFailure e0 e1)) = e0 ∧
    statusCrc1Err (causeStatus (.integrityFailure e0 e1)) = e1 := by
  revert e0 e1
  decide

/-- The table of R26 gives a frame with a bad half the STATUS of IntegrityFailure with exactly the bad halves (R202). -/
theorem frameOutcome_of_fails (f : Frame) (fails : ¬ FrameVerifies f) :
    frameOutcome f = causeStatus (.integrityFailure (!decide (Half0Verifies f)) (!decide (Half1Verifies f))) := by
  unfold frameOutcome
  by_cases half0 : Half0Verifies f
  · have bad1 : ¬ Half1Verifies f := fun half1 => fails ⟨half0, half1⟩
    rw [if_pos half0, if_neg bad1, decide_eq_true half0, decide_eq_false bad1]
    rfl
  · rw [if_neg half0, decide_eq_false half0]
    by_cases half1 : Half1Verifies f
    · rw [if_pos half1, decide_eq_true half1]
      rfl
    · rw [if_neg half1, decide_eq_false half1]
      rfl

/-- On a frame that does not verify every frame command is the frame check alone (R104, R201): CHECK and READ_SN
have equations of their own, and the T/H commands are TH of one of the two modes. -/
theorem execute_of_frame_fails (v : Byte) (s : State) (frame : v ∈ frameCodes)
    (fails : ¬ FrameVerifies s.block.frame) :
    execute v s = .next { s with block := checked v s.block, rdata := none } := by
  rw [frameCodes, List.mem_append, List.mem_append] at frame
  obtain (plain | normal) | heater := frame
  · obtain rfl | rfl := List.mem_pair.mp plain
    · rw [execute_of_row s (0x01, .check) (by decide), exec_check]
    · rw [execute_of_row s (0x89, .readSn) (by decide), exec_readSn, if_neg fails]
  · rw [execute_of_normal s v normal, th_of_fails .normal v s fails]
  · rw [execute_of_heater s v heater, th_of_fails .heater v s fails]

/-- Settles O36: the command leaves the checked registers, whose STATUS is that of IntegrityFailure. -/
theorem integrityFailureKeepsResults : Obligations.IntegrityFailureKeepsResults := by
  unfold Obligations.IntegrityFailureKeepsResults
  intro i s wellFormed ⟨v, frame, written⟩ fails
  have runs : exec i s = .next { s with block := checked v s.block, rdata := none } :=
    (exec_of_cmdWritten i v s wellFormed written).trans (execute_of_frame_fails v s frame fails)
  have raised : (checked v s.block).status = _ := frameOutcome_of_fails s.block.frame fails
  obtain ⟨ok, cmdErr, crc0Err, crc1Err⟩ :=
    status_of_integrityFailure (!decide (Half0Verifies s.block.frame)) (!decide (Half1Verifies s.block.frame))
  refine ⟨_, runs, ?_, ?_, ?_, rfl, rfl, rfl, rfl⟩
  · rw [raised]
    exact ⟨ok, cmdErr⟩
  · rw [raised, crc0Err, Bool.not_eq_true', decide_eq_false_iff_not]
  · rw [raised, crc1Err, Bool.not_eq_true', decide_eq_false_iff_not]

end Sys2Proof.Machine
end

section
/-! Decoding and encoding: each format's decoder on bits that fit it, and the words and bytes that encode an
instruction (spec R70 to R72, R78, R82). -/

namespace Sys2Proof

open Sys2Proof.Machine

/-! ### The two formats -/

/-- Eight bits are a command byte (R71). -/
theorem decode_byte (code : Byte) : decode 8 code.toNat = .ok (decodeCommand code) := by
  rw [decode, if_pos rfl, if_pos code.isLt, BitVec.ofNat_toNat, BitVec.setWidth_eq]

/-- Fourteen bits are a transaction word, and so are sixteen whose two high bits are zero (R70, log 7). -/
theorem decode_word (nbits : Nat) (wide : nbits = 14 ∨ nbits = 16) (w : TxnWord) :
    decode nbits w.toNat = .ok (decodeTxn w) := by
  have notByte : nbits ≠ 8 := by omega
  rw [decode, if_neg notByte, if_pos wide, if_pos w.isLt, BitVec.ofNat_toNat, BitVec.setWidth_eq]

/-- Decoding the word of a transaction's three fields gives that transaction. -/
theorem decode_txnWord (write : Bool) (off : Offset) (data : Byte) :
    decode 14 (txnWord write off data).toNat = .ok (if write then .wr off data else .rd off data) := by
  rw [decode_word 14 (.inl rfl), decodeTxn_txnWord]

/-- Bits that fit neither format are rejected (R82, log 7). -/
theorem decodeTableWord_of_misfit (nbits w : Nat) (noByte : ¬ (nbits = 8 ∧ w < 2 ^ 8))
    (noWord : ¬ ((nbits = 14 ∨ nbits = 16) ∧ w < 2 ^ 14)) : decodeTableWord nbits w = none := by
  unfold decodeTableWord decode
  by_cases byte : nbits = 8
  · have tooWide : ¬ w < 2 ^ 8 := fun fits => noByte ⟨byte, fits⟩
    rw [if_pos byte, if_neg tooWide]
  · rw [if_neg byte]
    by_cases word : nbits = 14 ∨ nbits = 16
    · have tooWide : ¬ w < 2 ^ 14 := fun fits => noWord ⟨word, fits⟩
      rw [if_pos word, if_neg tooWide]
    · rw [if_neg word]

/-- What the opcode table reads is what the decoder accepts. -/
theorem decodeTableWord_eq_some_iff (nbits w : Nat) (i : Instr) :
    decodeTableWord nbits w = some i ↔ decode nbits w = .ok i := by
  unfold decodeTableWord
  cases decode nbits w <;> simp

/-- Bits that decode fit a format, and mean what its decoder says. -/
theorem decode_eq_ok_cases (nbits w : Nat) (i : Instr) (decodes : decode nbits w = .ok i) :
    (nbits = 8 ∧ i = decodeCommand (BitVec.ofNat 8 w)) ∨
    ((nbits = 14 ∨ nbits = 16) ∧ i = decodeTxn (BitVec.ofNat 14 w)) := by
  by_cases byte : nbits = 8 ∧ w < 2 ^ 8
  · obtain ⟨rfl, fits⟩ := byte
    have number : w = (BitVec.ofNat 8 w).toNat := (Nat.mod_eq_of_lt fits).symm
    rw [number, decode_byte] at decodes
    injection decodes with meaning
    exact .inl ⟨rfl, meaning.symm⟩
  by_cases word : (nbits = 14 ∨ nbits = 16) ∧ w < 2 ^ 14
  · obtain ⟨wide, fits⟩ := word
    have number : w = (BitVec.ofNat 14 w).toNat := (Nat.mod_eq_of_lt fits).symm
    rw [number, decode_word nbits wide] at decodes
    injection decodes with meaning
    exact .inr ⟨wide, meaning.symm⟩
  · rw [← decodeTableWord_eq_some_iff, decodeTableWord_of_misfit nbits w byte word] at decodes
    nomatch decodes

/-! ### Transaction words -/

/-- A word is the join of its three fields (R70). -/
theorem txnWord_of_fields (w : TxnWord) :
    txnWord (w.getLsbD 13) (w.extractLsb' 8 5) (w.extractLsb' 0 8) = w := by
  have write_bit : BitVec.ofBool (w.getLsbD 13) = w.extractLsb' 13 1 := by
    refine BitVec.eq_of_getLsbD_eq fun j low => ?_
    obtain rfl : j = 0 := by omega
    simp
  have upper : w.extractLsb' 13 1 ++ w.extractLsb' 8 5 = w.extractLsb' 8 6 :=
    BitVec.extractLsb'_append_extractLsb'_eq_extractLsb' rfl
  have whole : w.extractLsb' 8 6 ++ w.extractLsb' 0 8 = w.extractLsb' 0 14 :=
    BitVec.extractLsb'_append_extractLsb'_eq_extractLsb' rfl
  rw [txnWord, write_bit, upper, whole, BitVec.extractLsb'_eq_self]

/-- A transaction encodes as the word of its fields (R70). -/
theorem encode_txn (write : Bool) (off : Offset) (data : Byte) :
    encode (if write then .wr off data else .rd off data) = (14, (txnWord write off data).toNat) := by
  rw [txnWord_toNat]
  cases write <;> rfl

/-- A word encodes the transaction that it decodes to. -/
theorem encode_decodeTxn (w : TxnWord) : encode (decodeTxn w) = (14, w.toNat) :=
  calc encode (decodeTxn w)
    _ = (14, (txnWord (w.getLsbD 13) (w.extractLsb' 8 5) (w.extractLsb' 0 8)).toNat) := encode_txn _ _ _
    _ = (14, w.toNat) := by rw [txnWord_of_fields]

/-- Every word decodes to a well-formed instruction: transactions are well formed with every operand. -/
theorem decodeTxn_wellFormed (w : TxnWord) : (decodeTxn w).WellFormed := by
  unfold decodeTxn
  split <;> rfl

/-! ### Command bytes -/

/-- Each row's code decodes to the row's instruction (R72). -/
theorem decodeCommand_of_row : ∀ row ∈ commandTable, decodeCommand row.1 = row.2 := by decide

/-- Every row's instruction is well formed and encodes as the row's code (R71, R72). -/
theorem commandTable_rows_encode_byte :
    ∀ row ∈ commandTable, row.2.WellFormed ∧ encode row.2 = (8, row.1.toNat) := by decide

/-- A named code is the code of some row. -/
theorem exists_row_of_named (code : Byte) (named : code ∈ namedCodes) :
    ∃ i, (code, i) ∈ commandTable := by
  rw [← commandTable_codes_named, List.mem_map] at named
  obtain ⟨⟨_, i⟩, row, rfl⟩ := named
  exact ⟨i, row⟩

/-- Well-formedness of ILLEGAL says that no named row matches its code (R78). -/
theorem illegal_wellFormed_iff (code : Byte) : (Instr.illegal code).WellFormed ↔ code ∉ namedCodes := by
  simp [Instr.WellFormed, Instr.wellFormed]

/-- Every byte decodes to a well-formed instruction that encodes as the byte: a row of the table, or ILLEGAL
(R72, R78). -/
theorem decodeCommand_wellFormed_and_encode (code : Byte) :
    (decodeCommand code).WellFormed ∧ encode (decodeCommand code) = (8, code.toNat) := by
  by_cases named : code ∈ namedCodes
  · obtain ⟨i, row⟩ := exists_row_of_named code named
    rw [decodeCommand_of_row (code, i) row]
    exact commandTable_rows_encode_byte (code, i) row
  · rw [decodeCommand_of_not_named code named]
    exact ⟨(illegal_wellFormed_iff code).mpr named, rfl⟩

/-! ### The statements -/

/-- Settles O9: a transaction encodes as the word of its fields, a named command as its row's code, and ILLEGAL as
its own code, which well-formedness keeps off the rows. -/
theorem decodeEncodeAgree : Obligations.DecodeEncodeAgree := by
  unfold Obligations.DecodeEncodeAgree
  intro i wellFormed
  cases i with
  | rd off data =>
    have word : encode (.rd off data) = (14, (txnWord false off data).toNat) := encode_txn false off data
    rw [word]
    exact decode_txnWord false off data
  | wr off data =>
    have word : encode (.wr off data) = (14, (txnWord true off data).toNat) := encode_txn true off data
    rw [word]
    exact decode_txnWord true off data
  | illegal code =>
    have unnamed : code ∉ namedCodes := (illegal_wellFormed_iff code).mp wellFormed
    calc decode 8 code.toNat
      _ = .ok (decodeCommand code) := decode_byte code
      _ = .ok (.illegal code) := by rw [decodeCommand_of_not_named code unnamed]
  | _ => rfl

/-- Settles O10: a word is a transaction's three fields, a byte is a command's code, and nothing else fits a
format. -/
theorem everyWordHasOneMeaning : Obligations.EveryWordHasOneMeaning := by
  unfold Obligations.EveryWordHasOneMeaning
  refine ⟨fun w fits => ?_, fun v fits => ?_, decodeTableWord_of_misfit⟩
  · have number : w = (BitVec.ofNat 14 w).toNat := (Nat.mod_eq_of_lt fits).symm
    rw [number]
    exact ⟨_, decode_word 14 (.inl rfl) _, decode_word 16 (.inr rfl) _, decodeTxn_wellFormed _,
      encode_decodeTxn _⟩
  · have number : v = (BitVec.ofNat 8 v).toNat := (Nat.mod_eq_of_lt fits).symm
    rw [number]
    exact ⟨_, decode_byte _, decodeCommand_wellFormed_and_encode _⟩

/-- Settles O7: fixed words, decoded. -/
theorem writtenOutWordsDecode : Obligations.WrittenOutWordsDecode := by
  unfold Obligations.WrittenOutWordsDecode
  exact ⟨rfl, rfl, rfl, rfl, rfl, rfl, rfl, rfl, rfl⟩

end Sys2Proof
end

section
/-! What an instruction can do, said once: the effect of the code written to CMD, and the effect of any instruction.
Both relations are the model's own meaning (`execute_eq_next_iff`, `exec_eq_next_iff`). -/

namespace Sys2Proof.Machine

open Sys2Proof.Safety

/-! ### Kinds of codes -/

/-- The frame commands are CHECK, READ_SN, and the T/H commands of the two modes (R20). -/
theorem mem_frameCodes_iff (v : Byte) :
    v ∈ frameCodes ↔ v = 0x01 ∨ v = 0x89 ∨ v ∈ normalCodes ∨ v ∈ heaterCodes := by
  rw [frameCodes, List.mem_append, List.mem_append, List.mem_pair, or_assoc, or_assoc]

/-- The codes that select a command are CLEAR's and the frame commands' (R72). -/
theorem mem_commandCodes_iff (v : Byte) : v ∈ commandCodes ↔ v = 0x02 ∨ v ∈ frameCodes := List.mem_cons

/-- No normal code is another kind's (R72). -/
theorem normal_only : ∀ v ∈ normalCodes, v ∉ heaterCodes ∧ v ≠ 0x01 ∧ v ≠ 0x02 ∧ v ≠ 0x89 := by decide

/-- No heater code is another kind's (R72). -/
theorem heater_only : ∀ v ∈ heaterCodes, v ∉ normalCodes ∧ v ≠ 0x01 ∧ v ≠ 0x02 ∧ v ≠ 0x89 := by decide

/-- CLEAR is no frame command (R20). -/
theorem frame_not_clear : ∀ v ∈ frameCodes, v ≠ 0x02 := by decide

/-! ### The effect of a code written to CMD -/

/-- What writing `v` to CMD makes of the state `s`, one constructor for each way a command can end. -/
inductive CommandEffect (v : Byte) (s t : State) : Prop where
  /-- ILLEGAL(v) (R171, R204). -/
  | illegal (selectsNone : v ∉ commandCodes)
      (state : t = { s with block := { s.block with lastCmd := v, status := 0x08 }, rdata := none })
  /-- CLEAR (R170). -/
  | clear (code : v = 0x02)
      (state : t = { s with block := { Block.reset with lastCmd := v }, rdata := none })
  /-- A frame command on a frame that does not verify (R104, R201). -/
  | failed (frame : v ∈ frameCodes) (fails : ¬ FrameVerifies s.block.frame)
      (state : t = { s with block := checked v s.block, rdata := none })
  /-- CHECK on a frame that verifies (R105). -/
  | check (code : v = 0x01) (verified : FrameVerifies s.block.frame)
      (state : t = { s with block := checked v s.block, rdata := none })
  /-- READ_SN on a frame that verifies (R120). -/
  | readSn (code : v = 0x89) (verified : FrameVerifies s.block.frame)
      (state : t = { s with
        block := { checked v s.block with sn := snVal s.block.frame }, rdata := none })
  /-- A T/H command on a frame that verifies, HUM clamped (R141, R146). -/
  | clamped (code : v ∈ normalCodes ∨ v ∈ heaterCodes ∧ s.cfg.heaterClamp = .fixed)
      (verified : FrameVerifies s.block.frame)
      (state : t = { s with
        block := converted v (s16 (convH (rawH s.block.frame))) s.block, rdata := none })
  /-- A heater command under LEGACY on a frame that verifies, HUM drawn (R147). -/
  | drawn (heater : v ∈ heaterCodes) (legacy : s.cfg.heaterClamp = .legacy)
      (verified : FrameVerifies s.block.frame)
      (state : t = { s with
        block := converted v (legacyHum (rawH s.block.frame) s.block.hum (Config.legacyDraw s.draws)) s.block
        draws := s.draws + 1
        rdata := none })

/-- Execute does what the effect says. -/
theorem CommandEffect.execute_eq {v : Byte} {s t : State} (effect : CommandEffect v s t) :
    execute v s = .next t := by
  cases effect with
  | illegal selectsNone state =>
    rw [state, execute_of_not_command v s selectsNone, exec_illegal]
  | clear code state =>
    rw [state, code, execute_of_row s (0x02, .clear) (by decide), exec_clear]
  | failed frame fails state =>
    rw [state, execute_of_frame_fails v s frame fails]
  | check code verified state =>
    rw [state, code, execute_of_row s (0x01, .check) (by decide), exec_check]
  | readSn code verified state =>
    rw [state, code, execute_of_row s (0x89, .readSn) (by decide), exec_readSn, if_pos verified]
  | clamped code verified state =>
    obtain normal | ⟨heater, fixed⟩ := code
    · rw [state, execute_of_normal s v normal, th_of_clamped .normal v s verified (.inl rfl)]
    · rw [state, execute_of_heater s v heater, th_of_clamped .heater v s verified (.inr fixed)]
  | drawn heater legacy verified state =>
    rw [state, execute_of_heater s v heater, th_of_drawn v s verified legacy]

/-- Every code has an effect in every state: it selects no command, or CLEAR, or a frame command whose check fails
or passes. -/
theorem exists_commandEffect (v : Byte) (s : State) : ∃ t, CommandEffect v s t := by
  by_cases selects : v ∈ commandCodes
  case neg => exact ⟨_, .illegal selects rfl⟩
  obtain clear | frame := (mem_commandCodes_iff v).mp selects
  · exact ⟨_, .clear clear rfl⟩
  by_cases verified : FrameVerifies s.block.frame
  case neg => exact ⟨_, .failed frame verified rfl⟩
  obtain check | readSn | normal | heater := (mem_frameCodes_iff v).mp frame
  · exact ⟨_, .check check verified rfl⟩
  · exact ⟨_, .readSn readSn verified rfl⟩
  · exact ⟨_, .clamped (.inl normal) verified rfl⟩
  · cases setting : s.cfg.heaterClamp with
    | fixed => exact ⟨_, .clamped (.inr ⟨heater, setting⟩) verified rfl⟩
    | legacy => exact ⟨_, .drawn heater setting verified rfl⟩

/-- Execute is the relation `CommandEffect`. -/
theorem execute_eq_next_iff (v : Byte) (s t : State) : execute v s = .next t ↔ CommandEffect v s t := by
  refine ⟨fun runs => ?_, CommandEffect.execute_eq⟩
  obtain ⟨u, effect⟩ := exists_commandEffect v s
  have same : Host.Outcome.next u = .next t := effect.execute_eq.symm.trans runs
  injection same with same
  exact same ▸ effect

/-- A code has one effect. -/
theorem CommandEffect.unique {v : Byte} {s t u : State} (ends : CommandEffect v s t)
    (also : CommandEffect v s u) : t = u := by
  injection ends.execute_eq.symm.trans also.execute_eq

/-! ### The effect of an instruction -/

/-- What an instruction makes of the state `s`: a bus read, a bus write elsewhere than CMD, or the effect of the
code it writes to CMD (R52, R53). -/
inductive Effect (i : Instr) (s t : State) : Prop where
  | read (off : Offset) (data : Byte) (instr : i = .rd off data) (state : t = busRead off s)
  | store (off : Offset) (data : Byte) (instr : i = .wr off data) (notCmd : off ≠ 0x06)
      (state : t = busWrite off data s)
  | command (v : Byte) (written : cmdWritten i = some v) (effect : CommandEffect v s t)

/-- A write elsewhere than to CMD is a bus write (R53). -/
theorem exec_wr_not_cmd (off : Offset) (data : Byte) (s : State) (notCmd : off ≠ 0x06) :
    exec (.wr off data) s = .next (busWrite off data s) :=
  if_neg notCmd

/-- A well-formed instruction does what the effect says. -/
theorem Effect.exec_eq {i : Instr} {s t : State} (wellFormed : i.WellFormed) (effect : Effect i s t) :
    exec i s = .next t := by
  cases effect with
  | read off data instr state => rw [instr, state, exec_rd]
  | store off data instr notCmd state => rw [instr, state, exec_wr_not_cmd off data s notCmd]
  | command v written effect => rw [exec_of_cmdWritten i v s wellFormed written, effect.execute_eq]

/-- An instruction that writes no code to CMD is a read, or a write to another offset (R53). -/
theorem cmdWritten_eq_none_iff (i : Instr) :
    cmdWritten i = none ↔
      (∃ off data, i = .rd off data) ∨ ∃ off data, i = .wr off data ∧ off ≠ 0x06 := by
  cases i with
  | wr off data => simp [cmdWritten]
  | _ => simp [cmdWritten, commandCode]

/-- Every instruction has an effect in every state. -/
theorem exists_effect (i : Instr) (s : State) : ∃ t, Effect i s t := by
  cases written : cmdWritten i with
  | none =>
    obtain ⟨off, data, rfl⟩ | ⟨off, data, rfl, notCmd⟩ := (cmdWritten_eq_none_iff i).mp written
    · exact ⟨_, .read off data rfl rfl⟩
    · exact ⟨_, .store off data rfl notCmd rfl⟩
  | some v =>
    obtain ⟨t, effect⟩ := exists_commandEffect v s
    exact ⟨t, .command v written effect⟩

/-- `exec` of a well-formed instruction is the relation `Effect`. -/
theorem exec_eq_next_iff (i : Instr) (s t : State) (wellFormed : i.WellFormed) :
    exec i s = .next t ↔ Effect i s t := by
  refine ⟨fun runs => ?_, Effect.exec_eq wellFormed⟩
  obtain ⟨u, effect⟩ := exists_effect i s
  have same : Host.Outcome.next u = .next t := (effect.exec_eq wellFormed).symm.trans runs
  injection same with same
  exact same ▸ effect

/-- The ill-formed instructions are ILLEGAL with a named code. -/
theorem wellFormed_or_illegal (i : Instr) : i.WellFormed ∨ ∃ code, i = .illegal code := by
  cases i with
  | illegal code => exact .inr ⟨code, rfl⟩
  | _ => exact .inl rfl

/-- Every instruction, also an ill-formed one, answers a next state (R14). -/
theorem exec_completes (i : Instr) (s : State) : ∃ t, exec i s = .next t := by
  obtain wellFormed | ⟨code, rfl⟩ := wellFormed_or_illegal i
  · obtain ⟨t, effect⟩ := exists_effect i s
    exact ⟨t, effect.exec_eq wellFormed⟩
  · exact ⟨_, exec_illegal code s⟩

/-! ### Which codes an instruction runs -/

/-- An instruction runs one of these codes exactly when the code it writes is one of them. -/
theorem runs_iff_mem {i : Instr} {v : Byte} (written : cmdWritten i = some v) (codes : List Byte) :
    Runs i codes ↔ v ∈ codes := by
  constructor
  · rintro ⟨w, listed, alsoWritten⟩
    injection written.symm.trans alsoWritten with same
    exact same ▸ listed
  · exact fun listed => ⟨v, listed, written⟩

/-- An instruction that writes no code runs none. -/
theorem not_runs_of_none {i : Instr} (silent : cmdWritten i = none) (codes : List Byte) : ¬ Runs i codes := by
  rintro ⟨v, -, written⟩
  exact nomatch silent.symm.trans written

end Sys2Proof.Machine
end

section
/-! The conversions: exact floors, ranges, thresholds, and the set of LEGACY results (spec R140, R141, R147, R154 to
R156). -/

namespace Sys2Proof.Machine

open Sys2Proof.Safety

/-! ### Ranges (R155) -/

theorem convT_range (raw : Half) : -450 ≤ convT raw ∧ convT raw ≤ 1299 := by
  have fits := raw.isLt
  rw [convT_eq_div]
  omega

theorem humLin_range (raw : Half) : -60 ≤ humLin raw ∧ humLin raw ≤ 1189 := by
  have fits := raw.isLt
  rw [humLin_eq_div]
  omega

theorem convH_range (raw : Half) : 0 ≤ convH raw ∧ convH raw ≤ 1000 := by
  unfold convH
  omega

/-- TEMP reads back signed as the converted value (R27). -/
theorem s16_convT_toInt (raw : Half) : (s16 (convT raw)).toInt = convT raw := by
  have range := convT_range raw
  exact s16_toInt_of_range _ (by omega) (by omega)

/-- The unclamped humidity reads back signed (R155). -/
theorem s16_humLin_toInt (raw : Half) : (s16 (humLin raw)).toInt = humLin raw := by
  have range := humLin_range raw
  exact s16_toInt_of_range _ (by omega) (by omega)

/-- The clamped humidity reads back signed as well as unsigned (R28). -/
theorem s16_convH_toInt (raw : Half) : (s16 (convH raw)).toInt = convH raw := by
  have range := convH_range raw
  exact s16_toInt_of_range _ (by omega) (by omega)

theorem s16_convH_toNat (raw : Half) : ((s16 (convH raw)).toNat : Int) = convH raw := by
  have range := convH_range raw
  exact s16_toNat_of_range _ (by omega) (by omega)

/-! ### Monotony (R155) -/

theorem convT_mono {a b : Half} (le : a.toNat ≤ b.toNat) : convT a ≤ convT b := by
  rw [convT_eq_div, convT_eq_div]
  omega

theorem humLin_mono {a b : Half} (le : a.toNat ≤ b.toNat) : humLin a ≤ humLin b := by
  rw [humLin_eq_div, humLin_eq_div]
  omega

/-! ### The statements -/

/-- Settles O26: each conversion is a division by 65536 (`convT_eq_div`, `humLin_eq_div`) less an offset, and the
clamp is `min` and `max`. -/
theorem conversionsAreExactFloors : Obligations.ConversionsAreExactFloors := by
  unfold Obligations.ConversionsAreExactFloors
  intro raw
  refine ⟨?_, ?_, ?_⟩
  · rw [convT_eq_div]
    omega
  · rw [humLin_eq_div]
    omega
  · unfold convH
    omega

/-- Settles O27: the ranges, the values read back from 16 bits, and monotony of the division. -/
theorem conversionRangesAndMonotony : Obligations.ConversionRangesAndMonotony := by
  unfold Obligations.ConversionRangesAndMonotony
  refine ⟨fun raw => ?_, by decide, by decide, fun a b le => ⟨convT_mono le, humLin_mono le⟩⟩
  obtain ⟨tLow, tHigh⟩ := convT_range raw
  obtain ⟨linLow, linHigh⟩ := humLin_range raw
  obtain ⟨hLow, hHigh⟩ := convH_range raw
  exact ⟨tLow, tHigh, s16_convT_toInt raw, linLow, linHigh, hLow, hHigh, s16_convH_toNat raw⟩

/-- Settles O28: each threshold is where the divided product passes a multiple of 65536. -/
theorem thresholdCounts : Obligations.ThresholdCounts := by
  unfold Obligations.ThresholdCounts
  intro raw
  rw [convT_eq_div, humLin_eq_div]
  omega

/-- The value modulo 65536 and the value narrow to the same 16 bits (R147). -/
theorem ofInt_emod_eq_s16 (v : Int) : BitVec.ofInt 16 (v % 65536) = s16 v :=
  BitVec.eq_of_toNat_eq (by simp only [s16, BitVec.toNat_ofInt]; omega)

/-- Out of range the two draws give the earlier value and the unclamped one (R147). -/
theorem exists_draw_of_out_of_range (raw old v : Half) (out : ¬ (0 ≤ humLin raw ∧ humLin raw ≤ 1000))
    (admitted : v = old ∨ v = s16 (humLin raw)) : ∃ keepOld, legacyHum raw old keepOld = v := by
  obtain rfl | rfl := admitted
  · exact ⟨true, legacyHum_out_of_range raw v true out⟩
  · exact ⟨false, legacyHum_out_of_range raw old false out⟩

/-- Settles O29: every draw is admitted (`legacyHum_admitted`); conversely each admitted value is in range and the
same for both draws, or out of range and one of the two. -/
theorem legacyDrawsAreExactlyTheAdmittedSet : Obligations.LegacyDrawsAreExactlyTheAdmittedSet := by
  unfold Obligations.LegacyDrawsAreExactlyTheAdmittedSet
  intro raw old v
  constructor
  · rintro ⟨keepOld, rfl⟩
    exact legacyHum_admitted raw old keepOld
  · rintro ⟨inRange, above, below⟩
    by_cases low : humLin raw < 0
    · have admitted := below low
      rw [ofInt_emod_eq_s16] at admitted
      exact exists_draw_of_out_of_range raw old v (by omega) admitted
    · by_cases high : 1000 < humLin raw
      · exact exists_draw_of_out_of_range raw old v (by omega) (above high)
      · have range : 0 ≤ humLin raw ∧ humLin raw ≤ 1000 := ⟨by omega, by omega⟩
        exact ⟨true, (legacyHum_in_range raw old true range.1 range.2).trans (inRange range).symm⟩

end Sys2Proof.Machine
end

section
/-! CRC-8: the loop as an invertible linear map, and as polynomial division (spec R101 to R103, R106). -/

namespace Sys2Proof.Machine

/-! ### The loop (R101, R106) -/

/-- Any number of turns is linear over GF(2). -/
theorem crcLoop_xor (n : Nat) (x y : Byte) : crcLoop n (x ^^^ y) = crcLoop n x ^^^ crcLoop n y := by
  induction n generalizing x y with
  | zero => rfl
  | succ n ih => rw [crcLoop_succ, crcBit_xor, ih, crcLoop_succ, crcLoop_succ]

theorem crcLoop_injective (n : Nat) : Function.Injective (crcLoop n) := by
  induction n with
  | zero => exact Function.injective_id
  | succ n ih => exact ih.comp crcBit_injective

/-- On bytes, of which there are finitely many, injective is bijective. -/
theorem crcLoop_bijective (n : Nat) : Function.Bijective (crcLoop n) :=
  Finite.injective_iff_bijective.mp (crcLoop_injective n)

/-- Settles O24: linear and bijective turn by turn. -/
theorem crcLoopIsLinearAndInvertible : Obligations.CrcLoopIsLinearAndInvertible := by
  unfold Obligations.CrcLoopIsLinearAndInvertible
  exact ⟨crcLoop_xor 8, crcLoop_bijective 8⟩

/-! ### The CRC of two bytes (R102, R106) -/

theorem crc8_eq_loops (b0 b1 : Byte) : crc8 b0 b1 = crcLoop 8 (crcLoop 8 (crcInit ^^^ b0) ^^^ b1) := rfl

theorem crc8_injective_right (b0 : Byte) : Function.Injective (crc8 b0) := by
  intro x y same
  rw [crc8_eq_loops, crc8_eq_loops] at same
  exact (BitVec.xor_right_inj _).mp (crcLoop_injective 8 same)

theorem crc8_injective_left (b1 : Byte) : Function.Injective fun b0 => crc8 b0 b1 := by
  intro x y same
  change crc8 x b1 = crc8 y b1 at same
  rw [crc8_eq_loops, crc8_eq_loops] at same
  have first_bytes := (BitVec.xor_left_inj _).mp (crcLoop_injective 8 same)
  exact (BitVec.xor_right_inj _).mp (crcLoop_injective 8 first_bytes)

/-- Settles O22: in each byte the CRC is the loop after XORs, hence injective, hence bijective. -/
theorem crcIsABijectionInEachByte : Obligations.CrcIsABijectionInEachByte := by
  unfold Obligations.CrcIsABijectionInEachByte
  exact ⟨fun b0 => Finite.injective_iff_bijective.mp (crc8_injective_right b0),
    fun b1 => Finite.injective_iff_bijective.mp (crc8_injective_left b1)⟩

theorem halfOk_eq_false_iff (d0 d1 c : Byte) : halfOk d0 d1 c = false ↔ crc8 d0 d1 ≠ c := by
  rw [← Bool.not_eq_true, halfOk_iff]

/-- Settles O23: another data byte gives another CRC, as the CRC is injective in each byte; another CRC byte is not
the computed one. -/
theorem oneChangedByteIsDetected : Obligations.OneChangedByteIsDetected := by
  unfold Obligations.OneChangedByteIsDetected
  intro d0 d1 c x verifies
  obtain rfl := (halfOk_iff d0 d1 c).mp verifies
  simp only [halfOk_eq_false_iff]
  exact ⟨fun other same => other (crc8_injective_left d1 same),
    fun other same => other (crc8_injective_right d0 same), fun other same => other same.symm⟩

/-- Settles O21: fixed values, computed. -/
theorem publishedCrcVectorsHold : Obligations.PublishedCrcVectorsHold := by
  unfold Obligations.PublishedCrcVectorsHold
  decide +kernel

/-! ### Polynomial division (R102) -/

/-- One turn of the long division by x^8 + x^5 + x^4 + 1: subtract it under bit `k + 8` where that bit is 1. -/
def divideTurn (r : BitVec 24) (k : Nat) : BitVec 24 :=
  if r.getLsbD (k + 8) then r ^^^ (0x000131#24 <<< k) else r

/-- A turn of the CRC loop, in a wide register: the bit shifted out stays, and the polynomial's top bit clears it. -/
theorem crcBit_setWidth : ∀ c : Byte,
    (crcBit c).setWidth 24 =
      if c.getLsbD 7 then (c.setWidth 24 <<< 1) ^^^ 0x000131#24 else c.setWidth 24 <<< 1 := by
  decide

/-- Dividing under bit `k + 8` turns the CRC register that stands just above bit `k` once, and moves it down to
`k`; message bits `m` that do not reach bit `k + 8` pass by. -/
theorem divideTurn_shifted (c : Byte) (m : BitVec 24) (k : Nat) (inside : k < 16)
    (below : m.getLsbD (k + 8) = false) :
    divideTurn (c.setWidth 24 <<< (k + 1) ^^^ m) k = (crcBit c).setWidth 24 <<< k ^^^ m := by
  have top : (c.setWidth 24 <<< (k + 1) ^^^ m).getLsbD (k + 8) = c.getLsbD 7 := by
    have place : k + 8 - (k + 1) = 7 := by omega
    have inside_register : k + 8 < 24 := by omega
    have not_below : ¬ k + 8 < k + 1 := by omega
    simp only [BitVec.getLsbD_xor, BitVec.getLsbD_shiftLeft, BitVec.getLsbD_setWidth, below, place, inside_register,
      not_below, decide_true, decide_false, Bool.not_false, Bool.true_and, Bool.xor_false]
    rfl
  have moved : c.setWidth 24 <<< 1 <<< k = c.setWidth 24 <<< (k + 1) := by
    rw [← BitVec.shiftLeft_add, Nat.add_comm]
  rw [divideTurn, top, crcBit_setWidth]
  cases c.getLsbD 7 with
  | false => rw [if_neg Bool.false_ne_true, if_neg Bool.false_ne_true, moved]
  | true =>
    rw [if_pos rfl, if_pos rfl, BitVec.shiftLeft_xor_distrib, moved]
    ac_rfl

/-- Dividing under the bits above `k`, from the top down, is the CRC loop. -/
theorem divideTurns_shifted (n k : Nat) (c : Byte) (m : BitVec 24) (inside : k + n ≤ 16)
    (below : ∀ j, k + 8 ≤ j → m.getLsbD j = false) :
    (List.range' k n).reverse.foldl divideTurn (c.setWidth 24 <<< (k + n) ^^^ m) =
      (crcLoop n c).setWidth 24 <<< k ^^^ m := by
  induction n generalizing c with
  | zero => rfl
  | succ n ih =>
    rw [List.range'_1_concat, List.reverse_append, List.reverse_singleton, List.singleton_append,
      List.foldl_cons, ← Nat.add_assoc,
      divideTurn_shifted c m (k + n) (by omega) (below _ (by omega)), ih (crcBit c) (by omega)]
    rfl

/-- A byte moved up by `n` places has no bit from place `n + 8` on. -/
theorem getLsbD_shifted_byte (b : Byte) (n j : Nat) (high : n + 8 ≤ j) :
    (b.setWidth 24 <<< n).getLsbD j = false := by
  rw [BitVec.getLsbD_shiftLeft, BitVec.getLsbD_setWidth, b.getLsbD_of_ge (j - n) (by omega), Bool.and_false,
    Bool.and_false]

/-- Two bytes and a zero byte, as the places the division starts from. -/
theorem message_eq_xor (x y : Byte) :
    x ++ y ++ 0x00#8 = x.setWidth 24 <<< 16 ^^^ y.setWidth 24 <<< 8 := by
  refine BitVec.eq_of_getLsbD_eq fun j inside => ?_
  simp only [BitVec.getLsbD_append, BitVec.getLsbD_xor, BitVec.getLsbD_shiftLeft, BitVec.getLsbD_setWidth,
    BitVec.getLsbD_zero]
  by_cases zero : j < 8
  · simp [zero, show j < 16 by omega]
  by_cases second : j < 16
  · simp [zero, second, inside, show j - 8 < 8 by omega, show j - 8 < 24 by omega]
  · have passed : y.getLsbD (j - 8) = false := y.getLsbD_of_ge _ (by omega)
    simp [zero, second, inside, passed, show ¬ j - 8 < 8 by omega, show j - 8 - 8 = j - 16 by omega,
      show j - 16 < 24 by omega]

/-- Sixteen zero bits before a byte widen it. -/
theorem zeros_append_byte (b : Byte) : 0x0000#16 ++ b = b.setWidth 24 := by
  rw [BitVec.setWidth_eq_append (by omega)]
  rfl

/-- Settles O25: eight turns divide the first byte away, what is left meets the second byte, and eight more turns
divide that away. -/
theorem crcIsThePolynomialRemainder : Obligations.CrcIsThePolynomialRemainder := by
  unfold Obligations.CrcIsThePolynomialRemainder
  intro b0 b1
  have first_byte := divideTurns_shifted 8 8 (b0 ^^^ 0xFF) (b1.setWidth 24 <<< 8) (by omega)
    (getLsbD_shifted_byte b1 8)
  have second_byte := divideTurns_shifted 8 0 (crcLoop 8 (b0 ^^^ 0xFF) ^^^ b1) 0#24 (by omega)
    fun _ _ => BitVec.getLsbD_zero
  have meet : (crcLoop 8 (b0 ^^^ 0xFF)).setWidth 24 <<< 8 ^^^ b1.setWidth 24 <<< 8 =
      (crcLoop 8 (b0 ^^^ 0xFF) ^^^ b1).setWidth 24 <<< (0 + 8) ^^^ 0#24 := by
    rw [BitVec.setWidth_xor, BitVec.shiftLeft_xor_distrib, BitVec.xor_zero]
  have crc : crcLoop 8 (crcLoop 8 (b0 ^^^ 0xFF) ^^^ b1) = crc8 b0 b1 := by
    rw [crc8_eq_loops, BitVec.xor_comm b0]
    rfl
  change ((List.range' 8 8).reverse ++ (List.range' 0 8).reverse).foldl divideTurn
    ((b0 ^^^ 0xFF) ++ b1 ++ 0x00#8) = 0x0000#16 ++ crc8 b0 b1
  rw [List.foldl_append, message_eq_xor, first_byte, meet, second_byte, crc, zeros_append_byte,
    BitVec.shiftLeft_zero, BitVec.xor_zero]

end Sys2Proof.Machine
end

section
/-! The register window as a view of the whole block, and bus writes elsewhere than to CMD (spec R30, R31, R34, R52,
R53). -/

namespace Sys2Proof.Machine

/-! ### Reading -/

/-- Settles O14: RD is `busRead`, which fills `rdata` alone. -/
theorem readReturnsOneByteAndIgnoresData : Obligations.ReadReturnsOneByteAndIgnoresData := by
  unfold Obligations.ReadReturnsOneByteAndIgnoresData
  exact exec_rd

/-- The block is made of what the window reads, its results joined from their bytes (`resultsReadBigEndian`). -/
theorem block_eq_of_memRead (b : Block) :
    b =
      { frame := ⟨memRead b 0x00, memRead b 0x01, memRead b 0x02, memRead b 0x03, memRead b 0x04, memRead b 0x05⟩
        lastCmd := memRead b 0x06
        status := memRead b 0x07
        temp := memRead b 0x08 ++ memRead b 0x09
        hum := memRead b 0x0A ++ memRead b 0x0B
        sn := memRead b 0x0C ++ memRead b 0x0D ++ memRead b 0x0E ++ memRead b 0x0F
        crc0 := memRead b 0x10
        crc1 := memRead b 0x11 } := by
  obtain ⟨temp, hum, sn⟩ := resultsReadBigEndian b
  rw [temp, hum, sn]
  rfl

/-- Settles O16: the window determines the block, as the block is made of what it reads. -/
theorem windowShowsTheWholeBlock : Obligations.WindowShowsTheWholeBlock := by
  unfold Obligations.WindowShowsTheWholeBlock
  intro b b' same
  rw [block_eq_of_memRead b, block_eq_of_memRead b']
  simp only [same]

/-! ### Writing FRAME -/

theorem writeFrame_eq (off : Offset) (v : Byte) (f : Frame) :
    writeFrame off v f =
      { f0 := if off.toNat = 0x00 then v else f.f0
        f1 := if off.toNat = 0x01 then v else f.f1
        f2 := if off.toNat = 0x02 then v else f.f2
        f3 := if off.toNat = 0x03 then v else f.f3
        f4 := if off.toNat = 0x04 then v else f.f4
        f5 := if off.toNat = 0x05 then v else f.f5 } := by
  unfold writeFrame
  split <;> simp_all

/-- A second write of the same byte changes nothing (R59). -/
theorem writeFrame_writeFrame (off : Offset) (v : Byte) (f : Frame) :
    writeFrame off v (writeFrame off v f) = writeFrame off v f := by
  have twice (here : Prop) [Decidable here] (x : Byte) :
      (if here then v else if here then v else x) = if here then v else x := by
    by_cases at_it : here <;> simp [at_it]
  simp only [writeFrame_eq, twice]

/-- The six offsets of FRAME. -/
theorem frame_offset_cases (off : Offset) (frame : off.toNat < 6) :
    off = 0x00 ∨ off = 0x01 ∨ off = 0x02 ∨ off = 0x03 ∨ off = 0x04 ∨ off = 0x05 := by
  revert off
  decide

/-- The offsets above FRAME do not show what FRAME holds. -/
theorem memRead_with_frame (f : Frame) (b : Block) (a : Offset) (above : 6 ≤ a.toNat) :
    memRead { b with frame := f } a = memRead b a := by
  unfold memRead
  split
  case h_1 number | h_2 number | h_3 number | h_4 number | h_5 number | h_6 number => omega
  all_goals rfl

theorem memRead_writeFrame_same (off : Offset) (v : Byte) (b : Block) (frame : off.toNat < 6) :
    memRead { b with frame := writeFrame off v b.frame } off = v := by
  rw [writeFrame_eq]
  obtain rfl | rfl | rfl | rfl | rfl | rfl := frame_offset_cases off frame <;> rfl

theorem memRead_writeFrame_other (off a : Offset) (v : Byte) (b : Block) (other : a ≠ off) :
    memRead { b with frame := writeFrame off v b.frame } a = memRead b a := by
  by_cases above : 6 ≤ a.toNat
  · exact memRead_with_frame _ b a above
  · have number : off.toNat ≠ a.toNat := fun same => other (BitVec.eq_of_toNat_eq same.symm)
    rw [writeFrame_eq]
    obtain rfl | rfl | rfl | rfl | rfl | rfl := frame_offset_cases a (by omega) <;> exact if_neg number

/-! ### The statements about writes -/

/-- Settles O17: the write is `busWrite`, which stores one byte of FRAME. -/
theorem frameWriteStoresOneByte : Obligations.FrameWriteStoresOneByte := by
  unfold Obligations.FrameWriteStoresOneByte
  intro off v s frame
  have notCmd : off ≠ 0x06 := by
    rintro rfl
    exact absurd frame (by decide)
  exact ⟨_, exec_wr_not_cmd off v s notCmd, memRead_writeFrame_same off v s.block frame,
    fun a other => memRead_writeFrame_other off a v s.block other, rfl, rfl, rfl, rfl, rfl⟩

/-- Settles O18: the write is `busWrite`, which leaves FRAME as it was from offset 0x06 on. -/
theorem readOnlyAndReservedWritesAreIgnored : Obligations.ReadOnlyAndReservedWritesAreIgnored := by
  unfold Obligations.ReadOnlyAndReservedWritesAreIgnored
  intro off v s above
  have notCmd : off ≠ 0x06 := by
    rintro rfl
    exact absurd above (by decide)
  have ignored : (busWrite off v s).block = s.block := by
    rw [busWrite_block, writeFrame_of_ge off v s.block.frame (by omega)]
  exact ⟨memRead_reserved s.block off, _, exec_wr_not_cmd off v s notCmd, ignored, rfl, rfl, rfl, rfl, rfl⟩

end Sys2Proof.Machine
end

section
/-! What each register holds after an instruction, read off its effect (spec R21 to R30, R233), and what instructions
keep and do not read (spec R13, R14, R59). -/

namespace Sys2Proof.Machine

open Sys2Proof.Safety

/-! ### The block after each kind of code -/

theorem CommandEffect.block_of_none {v : Byte} {s t : State} (effect : CommandEffect v s t)
    (selectsNone : v ∉ commandCodes) : t.block = { s.block with lastCmd := v, status := 0x08 } := by
  rw [effect.unique (.illegal selectsNone rfl)]

theorem CommandEffect.block_of_clear {v : Byte} {s t : State} (effect : CommandEffect v s t) (clear : v = 0x02) :
    t.block = { Block.reset with lastCmd := v } := by
  rw [effect.unique (.clear clear rfl)]

theorem CommandEffect.block_of_fails {v : Byte} {s t : State} (effect : CommandEffect v s t)
    (frame : v ∈ frameCodes) (fails : ¬ FrameVerifies s.block.frame) : t.block = checked v s.block := by
  rw [effect.unique (.failed frame fails rfl)]

theorem CommandEffect.block_of_readSn {v : Byte} {s t : State} (effect : CommandEffect v s t)
    (readSn : v = 0x89) (verified : FrameVerifies s.block.frame) :
    t.block = { checked v s.block with sn := snVal s.block.frame } := by
  rw [effect.unique (.readSn readSn verified rfl)]

theorem CommandEffect.block_of_clamped {v : Byte} {s t : State} (effect : CommandEffect v s t)
    (code : v ∈ normalCodes ∨ v ∈ heaterCodes ∧ s.cfg.heaterClamp = .fixed)
    (verified : FrameVerifies s.block.frame) :
    t.block = converted v (s16 (convH (rawH s.block.frame))) s.block := by
  rw [effect.unique (.clamped code verified rfl)]

theorem CommandEffect.block_of_drawn {v : Byte} {s t : State} (effect : CommandEffect v s t)
    (heater : v ∈ heaterCodes) (legacy : s.cfg.heaterClamp = .legacy) (verified : FrameVerifies s.block.frame) :
    t.block =
      converted v (legacyHum (rawH s.block.frame) s.block.hum (Config.legacyDraw s.draws)) s.block := by
  rw [effect.unique (.drawn heater legacy verified rfl)]

/-- Whatever results a frame command writes, the rest of the block is as FrameCheck leaves it (R104). -/
theorem CommandEffect.block_of_frame {v : Byte} {s t : State} (effect : CommandEffect v s t)
    (frame : v ∈ frameCodes) :
    t.block = { checked v s.block with temp := t.block.temp, hum := t.block.hum, sn := t.block.sn } := by
  cases effect with
  | illegal selectsNone state => exact absurd (List.mem_cons_of_mem _ frame) selectsNone
  | clear code state => exact absurd code (frame_not_clear v frame)
  | failed _ _ state | check _ _ state | readSn _ _ state | clamped _ _ state | drawn _ _ _ state =>
    subst state
    rfl

/-! ### STATUS, LAST_CMD and FRAME -/

/-- STATUS after a code, by its kind (R26). -/
def commandStatus (v : Byte) (f : Frame) : Byte :=
  if v ∈ frameCodes then frameOutcome f else if v = 0x02 then 0x00 else 0x08

theorem CommandEffect.status_eq {v : Byte} {s t : State} (effect : CommandEffect v s t) :
    t.block.status = commandStatus v s.block.frame := by
  unfold commandStatus
  by_cases frame : v ∈ frameCodes
  · rw [if_pos frame, effect.block_of_frame frame]
    rfl
  · rw [if_neg frame]
    by_cases clear : v = 0x02
    · rw [if_pos clear, effect.block_of_clear clear]
      rfl
    · have selectsNone : v ∉ commandCodes := fun selects =>
        ((mem_commandCodes_iff v).mp selects).elim clear frame
      rw [if_neg clear, effect.block_of_none selectsNone]

theorem CommandEffect.lastCmd_eq {v : Byte} {s t : State} (effect : CommandEffect v s t) :
    t.block.lastCmd = v := by
  cases effect with
  | illegal _ state | clear _ state | failed _ _ state | check _ _ state | readSn _ _ state | clamped _ _ state
  | drawn _ _ _ state =>
    subst state
    rfl

/-- Only CLEAR touches FRAME (R21). -/
theorem CommandEffect.frame_kept {v : Byte} {s t : State} (effect : CommandEffect v s t) (notClear : v ≠ 0x02) :
    t.block.frame = s.block.frame := by
  cases effect with
  | clear code state => exact absurd code notClear
  | illegal _ state | failed _ _ state | check _ _ state | readSn _ _ state | clamped _ _ state
  | drawn _ _ _ state =>
    subst state
    rfl

/-- The four outcomes of a frame command (R26). -/
theorem frameOutcome_mem (f : Frame) : frameOutcome f ∈ ([0x01, 0x02, 0x04, 0x06] : List Byte) := by
  unfold frameOutcome
  split <;> split <;> decide

/-- STATUS 0x01 is the outcome of a frame that verifies (R26). -/
theorem frameOutcome_eq_ok_iff (f : Frame) : frameOutcome f = 0x01 ↔ FrameVerifies f := by
  unfold frameOutcome
  split
  case isTrue half0 =>
    split
    case isTrue half1 => exact iff_of_true rfl ⟨half0, half1⟩
    case isFalse bad1 => exact iff_of_false (by decide) fun verified => bad1 verified.2
  case isFalse bad0 =>
    refine iff_of_false ?_ fun verified => bad0 verified.1
    split <;> decide

/-- A frame command ends with STATUS 0x01 exactly on a frame that verifies. -/
theorem CommandEffect.status_ok_iff {v : Byte} {s t : State} (effect : CommandEffect v s t)
    (frame : v ∈ frameCodes) : t.block.status = 0x01 ↔ FrameVerifies s.block.frame := by
  rw [effect.status_eq, commandStatus, if_pos frame, frameOutcome_eq_ok_iff]

/-- STATUS 0x08 is the outcome of the codes that select no command (R171, R204). -/
theorem commandStatus_eq_illegal_iff (v : Byte) (f : Frame) : commandStatus v f = 0x08 ↔ v ∉ commandCodes := by
  rw [mem_commandCodes_iff, not_or, commandStatus]
  by_cases frame : v ∈ frameCodes
  · have noError : frameOutcome f ≠ 0x08 := fun error => absurd (error ▸ frameOutcome_mem f) (by decide)
    rw [if_pos frame]
    exact iff_of_false noError fun neither => neither.2 frame
  · rw [if_neg frame]
    by_cases clear : v = 0x02
    · rw [if_pos clear]
      exact iff_of_false (by decide) fun neither => neither.1 clear
    · rw [if_neg clear]
      exact iff_of_true rfl ⟨clear, frame⟩

/-! ### TEMP, HUM, SN and the computed CRCs -/

theorem mem_th_iff (v : Byte) : v ∈ normalCodes ++ heaterCodes ↔ v ∈ normalCodes ∨ v ∈ heaterCodes :=
  List.mem_append

theorem th_mem_frameCodes (v : Byte) (th : v ∈ normalCodes ++ heaterCodes) : v ∈ frameCodes :=
  (mem_frameCodes_iff v).mpr (.inr (.inr ((mem_th_iff v).mp th)))

/-- After a T/H command on a frame that verifies, TEMP and HUM are the conversions (R140 to R147). -/
theorem CommandEffect.th_results {v : Byte} {s t : State} (effect : CommandEffect v s t)
    (th : v ∈ normalCodes ++ heaterCodes) (verified : FrameVerifies s.block.frame) :
    t.block.temp = s16 (convT (rawT s.block.frame)) ∧
    (v ∈ normalCodes ∨ s.cfg.heaterClamp = .fixed → t.block.hum = s16 (convH (rawH s.block.frame))) ∧
    (v ∈ heaterCodes → s.cfg.heaterClamp = .legacy →
      LegacyAdmits (rawH s.block.frame) s.block.hum t.block.hum) := by
  obtain normal | heater := (mem_th_iff v).mp th
  · rw [effect.block_of_clamped (.inl normal) verified]
    exact ⟨rfl, fun _ => rfl, fun heater => absurd heater (normal_only v normal).1⟩
  · cases setting : s.cfg.heaterClamp with
    | fixed =>
      rw [effect.block_of_clamped (.inr ⟨heater, setting⟩) verified]
      exact ⟨rfl, fun _ => rfl, nofun⟩
    | legacy =>
      rw [effect.block_of_drawn heater setting verified]
      refine ⟨rfl, fun clamped => ?_, fun _ _ => legacyHum_admitted _ _ _⟩
      obtain normal | fixed := clamped
      · exact absurd normal (heater_only v heater).1
      · nomatch fixed

/-- Commands other than T/H and CLEAR keep TEMP and HUM (R27, R28). -/
theorem CommandEffect.th_kept {v : Byte} {s t : State} (effect : CommandEffect v s t)
    (other : v ∉ 0x02 :: (normalCodes ++ heaterCodes)) :
    t.block.temp = s.block.temp ∧ t.block.hum = s.block.hum := by
  rw [List.mem_cons, mem_th_iff, not_or, not_or] at other
  obtain ⟨notClear, notNormal, notHeater⟩ := other
  cases effect with
  | illegal _ state | failed _ _ state | check _ _ state | readSn _ _ state =>
    subst state
    exact ⟨rfl, rfl⟩
  | clear code state => exact absurd code notClear
  | clamped code verified state => exact absurd code (not_or.mpr ⟨notNormal, fun heater => notHeater heater.1⟩)
  | drawn heater legacy verified state => exact absurd heater notHeater

/-- Commands other than READ_SN and CLEAR keep SN (R29). -/
theorem CommandEffect.sn_kept {v : Byte} {s t : State} (effect : CommandEffect v s t) (notClear : v ≠ 0x02)
    (notReadSn : v ≠ 0x89) : t.block.sn = s.block.sn := by
  cases effect with
  | illegal _ state | failed _ _ state | check _ _ state | clamped _ _ state | drawn _ _ _ state =>
    subst state
    rfl
  | clear code state => exact absurd code notClear
  | readSn code verified state => exact absurd code notReadSn

/-! ### Instructions -/

/-- Reads and writes elsewhere than to CMD change no register but FRAME; every other instruction is the effect of
a code. -/
theorem Effect.frame_only_or_command {i : Instr} {s t : State} (effect : Effect i s t) :
    (cmdWritten i = none ∧ t.block = { s.block with frame := t.block.frame }) ∨
    ∃ v, cmdWritten i = some v ∧ CommandEffect v s t := by
  cases effect with
  | read off data instr state =>
    subst instr state
    exact .inl ⟨rfl, rfl⟩
  | store off data instr notCmd state =>
    subst instr state
    exact .inl ⟨if_neg notCmd, rfl⟩
  | command v written effect => exact .inr ⟨v, written, effect⟩

/-! ### The statements -/

/-- Settles O12: the list is fixed, and STATUS 0x08 is the outcome of the codes outside it. -/
theorem twelveCodesSelectACommand : Obligations.TwelveCodesSelectACommand := by
  unfold Obligations.TwelveCodesSelectACommand
  refine ⟨by decide, by decide, fun s v => ?_⟩
  obtain ⟨t, effect⟩ := exists_commandEffect v s
  refine ⟨t, effect.execute_eq, ?_⟩
  rw [effect.status_eq, commandStatus_eq_illegal_iff]

/-- Settles O19: every code has an effect, which leaves the code in LAST_CMD. -/
theorem cmdWriteIsReadBack : Obligations.CmdWriteIsReadBack := by
  unfold Obligations.CmdWriteIsReadBack
  intro v s
  obtain ⟨t, effect⟩ := exists_commandEffect v s
  exact ⟨t, effect.execute_eq, effect.lastCmd_eq⟩

/-- Settles O40: a bus write outside FRAME stores nothing, and of the codes only CLEAR's touches FRAME. -/
theorem frameChangesOnlyByWriteOrClear : Obligations.FrameChangesOnlyByWriteOrClear := by
  unfold Obligations.FrameChangesOnlyByWriteOrClear
  intro i s t wellFormed runs changed
  cases (exec_eq_next_iff i s t wellFormed).mp runs with
  | read off data instr state =>
    subst state
    exact absurd rfl changed
  | store off data instr notCmd state =>
    refine .inl ⟨off, data, instr, ?_⟩
    by_contra above
    subst state
    exact changed (writeFrame_of_ge off data s.block.frame (by omega))
  | command v written effect =>
    refine .inr ((runs_iff_mem written _).mpr (List.mem_singleton.mpr ?_))
    by_contra notClear
    exact changed (effect.frame_kept notClear)

/-- Settles O41: by the code the instruction writes; STATUS 0x01 says that the frame verified. -/
theorem tempAndHumHoldTheLastMeasurement : Obligations.TempAndHumHoldTheLastMeasurement := by
  unfold Obligations.TempAndHumHoldTheLastMeasurement
  intro i s t wellFormed runs
  obtain ⟨silent, frameOnly⟩ | ⟨v, written, effect⟩ :=
    ((exec_eq_next_iff i s t wellFormed).mp runs).frame_only_or_command
  · simp only [not_runs_of_none silent, false_implies, true_and]
    rw [frameOnly]
    exact fun _ => ⟨rfl, rfl⟩
  · simp only [runs_iff_mem written]
    refine ⟨fun th ok => ?_, fun th notOk => ?_, fun clear => ?_, effect.th_kept⟩
    · exact effect.th_results th ((effect.status_ok_iff (th_mem_frameCodes v th)).mp ok)
    · have frame := th_mem_frameCodes v th
      rw [effect.block_of_fails frame fun verified => notOk ((effect.status_ok_iff frame).mpr verified)]
      exact ⟨rfl, rfl⟩
    · rw [effect.block_of_clear (List.mem_singleton.mp clear)]
      exact ⟨rfl, rfl⟩

/-- Settles O42: by the code the instruction writes; STATUS 0x01 says that the frame verified. -/
theorem serialHoldsTheLastReadSn : Obligations.SerialHoldsTheLastReadSn := by
  unfold Obligations.SerialHoldsTheLastReadSn
  intro i s t wellFormed runs
  obtain ⟨silent, frameOnly⟩ | ⟨v, written, effect⟩ :=
    ((exec_eq_next_iff i s t wellFormed).mp runs).frame_only_or_command
  · simp only [not_runs_of_none silent, false_implies, true_and]
    rw [frameOnly]
    exact fun _ => rfl
  · simp only [runs_iff_mem written, List.mem_singleton, List.mem_pair, not_or]
    have readSn_frame (readSn : v = 0x89) : v ∈ frameCodes := (mem_frameCodes_iff v).mpr (.inr (.inl readSn))
    refine ⟨fun readSn ok => ?_, fun readSn notOk => ?_, fun clear => ?_, fun other => ?_⟩
    · rw [effect.block_of_readSn readSn ((effect.status_ok_iff (readSn_frame readSn)).mp ok)]
    · have frame := readSn_frame readSn
      rw [effect.block_of_fails frame fun verified => notOk ((effect.status_ok_iff frame).mpr verified)]
      rfl
    · rw [effect.block_of_clear clear]
      rfl
    · exact effect.sn_kept other.1 other.2

/-- Settles O43: FrameCheck writes both CRCs whatever its outcome (`block_of_frame`). -/
theorem computedCrcsAreKeptForTheHost : Obligations.ComputedCrcsAreKeptForTheHost := by
  unfold Obligations.ComputedCrcsAreKeptForTheHost
  intro i s t wellFormed runs
  obtain ⟨silent, frameOnly⟩ | ⟨v, written, effect⟩ :=
    ((exec_eq_next_iff i s t wellFormed).mp runs).frame_only_or_command
  · simp only [not_runs_of_none silent, false_implies, true_and]
    rw [frameOnly]
    exact fun _ => ⟨rfl, rfl⟩
  · simp only [runs_iff_mem written, List.mem_singleton]
    refine ⟨fun frame => ?_, fun clear => ?_, fun selectsNone => ?_⟩
    · rw [effect.block_of_frame frame]
      exact ⟨rfl, rfl⟩
    · rw [effect.block_of_clear clear]
      exact ⟨rfl, rfl⟩
    · rw [effect.block_of_none selectsNone]
      exact ⟨rfl, rfl⟩

/-- An instruction that writes a code leaves it in LAST_CMD, and a STATUS that the code and the frame determine; for
the ill-formed ILLEGAL of a named code (log 14) it is 0x08 in every state. -/
theorem exists_status_of_frame (i : Instr) (v : Byte) (written : cmdWritten i = some v) :
    ∃ status : Frame → Byte, ∀ s t, exec i s = .next t →
      t.block.status = status s.block.frame ∧ t.block.lastCmd = v := by
  obtain wellFormed | ⟨code, rfl⟩ := wellFormed_or_illegal i
  · refine ⟨commandStatus v, fun s t runs => ?_⟩
    rw [exec_of_cmdWritten i v s wellFormed written] at runs
    have effect := (execute_eq_next_iff v s t).mp runs
    exact ⟨effect.status_eq, effect.lastCmd_eq⟩
  · injection written with same
    refine ⟨fun _ => 0x08, fun s t runs => ?_⟩
    injection (exec_illegal code s).symm.trans runs with state
    subst same state
    exact ⟨rfl, rfl⟩

/-- Settles O44: what writes no code changes at most FRAME; for a code, `exists_status_of_frame`. -/
theorem onlyCommandsWriteStatus : Obligations.OnlyCommandsWriteStatus := by
  unfold Obligations.OnlyCommandsWriteStatus
  constructor
  · intro i s t runs silent
    obtain wellFormed | ⟨code, rfl⟩ := wellFormed_or_illegal i
    · obtain ⟨-, frameOnly⟩ | ⟨v, written, -⟩ :=
        ((exec_eq_next_iff i s t wellFormed).mp runs).frame_only_or_command
      · rw [frameOnly]
        exact ⟨rfl, rfl⟩
      · nomatch silent.symm.trans written
    · nomatch silent
  · intro i v s t s' t' written sameFrame runs runs'
    obtain ⟨status, determined⟩ := exists_status_of_frame i v written
    obtain ⟨ends, lastCmd⟩ := determined s t runs
    obtain ⟨ends', -⟩ := determined s' t' runs'
    exact ⟨by rw [ends, ends', sameFrame], lastCmd⟩

/-- The serial number is the two raw counts joined (R79, R80). -/
theorem snVal_eq_raw_append (f : Frame) : snVal f = rawT f ++ rawH f := by
  refine BitVec.eq_of_toNat_eq ?_
  rw [snVal_toNat, BitVec.toNat_append, ← Nat.shiftLeft_add_eq_or_of_lt (rawH f).isLt, Nat.shiftLeft_eq, rawT_toNat,
    rawH_toNat]
  omega

/-- Settles O37: on a verified frame READ_SN stores the joined counts and MEAS_HIGH converts them, both without
error. -/
theorem oneFrameServesBothKinds : Obligations.OneFrameServesBothKinds := by
  unfold Obligations.OneFrameServesBothKinds
  intro s verified
  have readSn : Effect .readSn s _ := .command 0x89 rfl (.readSn rfl verified rfl)
  have measHigh : Effect .measHigh s _ := .command 0xFD rfl (.clamped (.inl (by decide)) verified rfl)
  have ok : frameOutcome s.block.frame = 0x01 := (frameOutcome_eq_ok_iff s.block.frame).mpr verified
  exact ⟨_, _, readSn.exec_eq rfl, measHigh.exec_eq rfl, snVal_eq_raw_append s.block.frame, rfl, ok, ok⟩

end Sys2Proof.Machine
end

section
/-! The step, by what is oldest in the queue: the reset input, refusals, transactions, and placed bits (spec R58, R70,
R71, R230, R231). -/

namespace Sys2Proof.Machine

open Sys2Proof.Safety

/-! ### Serving a request -/

/-- Asserting the reset input performs Reset() and holds it (R230). -/
theorem serve_assert (s : State) : serve (.resetLine true) s = .next { resetAction s with rst := true } := rfl

/-- Releasing the reset input changes nothing else (log 3). -/
theorem serve_release (s : State) : serve (.resetLine false) s = .next { s with rst := false } := rfl

/-- No transaction is taken while reset is asserted (R231). -/
theorem serve_access_during_reset (s : State) (bytes : Nat) (w : TxnWord) (asserted : s.rst = true) :
    serve (.access bytes w) s = .refused .transactionDuringReset :=
  if_pos asserted

/-- An access that is not one byte wide is no transaction (R58). -/
theorem serve_access_wide (s : State) (bytes : Nat) (w : TxnWord) (released : s.rst = false) (wide : bytes ≠ 1) :
    serve (.access bytes w) s = .refused .notAByteAccess := by
  have notAsserted : ¬ s.rst = true := by rw [released]; exact Bool.false_ne_true
  exact (if_neg notAsserted).trans (if_neg wide)

theorem step_assert (s : State) (rest : List Request) (queue : s.pending = .resetLine true :: rest) :
    step s = .next { resetAction s with pending := rest, rst := true } := by
  rw [step_request s _ rest queue, serve_assert]
  rfl

theorem step_release (s : State) (rest : List Request) (queue : s.pending = .resetLine false :: rest) :
    step s = .next { s with pending := rest, rst := false } := by
  rw [step_request s _ rest queue, serve_release]

/-- Out of reset a one-byte access oldest in the queue runs the instruction its word decodes to. -/
theorem step_transaction (s : State) (w : TxnWord) (rest : List Request) (released : s.rst = false)
    (queue : s.pending = .access 1 w :: rest) : step s = exec (decodeTxn w) { s with pending := rest } := by
  rw [step_request s _ rest queue]
  exact serve_transaction { s with pending := rest } w released

/-! ### A command byte on the bus -/

/-- A command byte's instruction writes the byte to CMD (R71). -/
theorem cmdWritten_decodeCommand (code : Byte) : cmdWritten (decodeCommand code) = some code := by
  have rows : ∀ row ∈ commandTable, cmdWritten row.2 = some row.1 := by decide
  by_cases named : code ∈ namedCodes
  · obtain ⟨i, row⟩ := exists_row_of_named code named
    rw [decodeCommand_of_row (code, i) row]
    exact rows (code, i) row
  · rw [decodeCommand_of_not_named code named]
    rfl

/-- The write of a command byte to CMD runs the command the byte decodes to (R53, R71). -/
theorem exec_wr_cmd_eq_decodeCommand (code : Byte) (s : State) :
    exec (.wr 0x06 code) s = exec (decodeCommand code) s :=
  (exec_of_cmdWritten (decodeCommand code) code s (decodeCommand_wellFormed_and_encode code).1
    (cmdWritten_decodeCommand code)).symm

/-- A word that carries a byte to CMD runs the command the byte decodes to. -/
theorem exec_txnWord_cmd (code : Byte) (s : State) :
    exec (decodeTxn (txnWord true 0x06 code)) s = exec (decodeCommand code) s := by
  rw [decodeTxn_txnWord]
  exact exec_wr_cmd_eq_decodeCommand code s

/-! ### Placed bits -/

/-- Bits that decode travel as a one-byte access whose word runs the instruction they decode to (log 8). -/
theorem exists_word_of_decode (nbits w : Nat) (i : Instr) (decodes : decode nbits w = .ok i) :
    ∃ word, fetchRequest nbits w = .access 1 word ∧ ∀ s, exec (decodeTxn word) s = exec i s := by
  have travels : fetchRequest nbits w =
      if nbits = 8 then .access 1 (txnWord true 0x06 (BitVec.ofNat 8 w)) else .access 1 (BitVec.ofNat 14 w) := by
    rw [fetchRequest, decodes]
  rw [travels]
  obtain ⟨rfl, meaning⟩ | ⟨wide, meaning⟩ := decode_eq_ok_cases nbits w i decodes
  · exact ⟨_, if_pos rfl, fun s => by rw [exec_txnWord_cmd, meaning]⟩
  · exact ⟨_, if_neg (by omega), fun s => by rw [meaning]⟩

/-! ### The statements -/

/-- Settles O2: the oldest request performs Reset(), whose block reads zero everywhere. -/
theorem assertingResetClearsTheWindow : Obligations.AssertingResetClearsTheWindow := by
  unfold Obligations.AssertingResetClearsTheWindow
  intro s rest queue
  exact ⟨_, step_assert s rest queue, memRead_reset, rfl, rfl, rfl⟩

/-- Settles O3: an access is refused while reset is asserted, and runs right after release. -/
theorem resetBlocksTransactionsUntilReleased : Obligations.ResetBlocksTransactionsUntilReleased := by
  unfold Obligations.ResetBlocksTransactionsUntilReleased
  refine ⟨fun s n w rest asserted queue => ?_, fun s w rest queue => ?_⟩
  · rw [step_request s _ rest queue]
    exact serve_access_during_reset { s with pending := rest } n w asserted
  · exact ⟨_, step_release s _ queue, rfl, step_transaction _ w rest rfl rfl⟩

/-- Settles O4: an access of another width than one byte is refused. -/
theorem widerAccessIsRefused : Obligations.WiderAccessIsRefused := by
  unfold Obligations.WiderAccessIsRefused
  intro s n w rest released wide queue
  rw [step_request s _ rest queue]
  exact serve_access_wide { s with pending := rest } n w released wide

/-- Settles O5: the step runs the decoded transaction, which for a write to CMD is the decoded command; with nothing
waiting it idles. -/
theorem stepRunsTheDecodedInstruction : Obligations.StepRunsTheDecodedInstruction := by
  unfold Obligations.StepRunsTheDecodedInstruction
  refine ⟨fun s w rest i released queue decodes => ?_, fun s code rest i released queue decodes => ?_, step_idle⟩
  · rw [decode_word 14 (.inl rfl)] at decodes
    injection decodes with meaning
    rw [step_transaction s w rest released queue, meaning]
  · rw [decode_byte] at decodes
    injection decodes with meaning
    rw [step_transaction s _ rest released queue, exec_txnWord_cmd, meaning]

/-- Settles O6: the placed bits stand first in the queue, out of reset, as an access that runs their instruction. -/
theorem placedWordRunsNext : Obligations.PlacedWordRunsNext := by
  unfold Obligations.PlacedWordRunsNext
  intro s nbits w i decodes
  rw [decodeTableWord_eq_some_iff] at decodes
  obtain ⟨word, travels, runs⟩ := exists_word_of_decode nbits w i decodes
  rw [State.withFetchWord, travels, step_transaction _ word s.pending rfl rfl, runs]
  rfl

end Sys2Proof.Machine
end

section
/-! What instructions keep, read and repeat (spec R9, R13, R14, R59). -/

namespace Sys2Proof.Machine

open Sys2Proof.Safety

/-! ### The model's own fields -/

theorem CommandEffect.keeps_surroundings {v : Byte} {s t : State} (effect : CommandEffect v s t) :
    t.cfg = s.cfg ∧ t.pending = s.pending ∧ t.rst = s.rst := by
  cases effect with
  | illegal _ state | clear _ state | failed _ _ state | check _ _ state | readSn _ _ state | clamped _ _ state
  | drawn _ _ _ state =>
    subst state
    exact ⟨rfl, rfl, rfl⟩

theorem CommandEffect.rdata_none {v : Byte} {s t : State} (effect : CommandEffect v s t) : t.rdata = none := by
  cases effect with
  | illegal _ state | clear _ state | failed _ _ state | check _ _ state | readSn _ _ state | clamped _ _ state
  | drawn _ _ _ state =>
    subst state
    rfl

/-- A draw is taken only by a heater command under LEGACY on a frame that verifies (R147, log 4). -/
theorem CommandEffect.draws_kept_or_drawn {v : Byte} {s t : State} (effect : CommandEffect v s t) :
    t.draws = s.draws ∨
    (t.draws = s.draws + 1 ∧ v ∈ heaterCodes ∧ s.cfg.heaterClamp = .legacy ∧ t.block.status = 0x01) := by
  cases effect with
  | illegal _ state | clear _ state | failed _ _ state | check _ _ state | readSn _ _ state | clamped _ _ state =>
    subst state
    exact .inl rfl
  | drawn heater legacy verified state =>
    subst state
    exact .inr ⟨rfl, heater, legacy, (frameOutcome_eq_ok_iff s.block.frame).mpr verified⟩

theorem Effect.keeps_surroundings {i : Instr} {s t : State} (effect : Effect i s t) :
    t.cfg = s.cfg ∧ t.pending = s.pending ∧ t.rst = s.rst := by
  cases effect with
  | read _ _ _ state | store _ _ _ _ state =>
    subst state
    exact ⟨rfl, rfl, rfl⟩
  | command v written effect => exact effect.keeps_surroundings

/-- Settles O45: the surroundings are kept by every effect, and a draw is taken in one of them. -/
theorem instructionsKeepTheSurroundings : Obligations.InstructionsKeepTheSurroundings := by
  unfold Obligations.InstructionsKeepTheSurroundings
  intro i s t wellFormed runs
  have effect := (exec_eq_next_iff i s t wellFormed).mp runs
  obtain ⟨cfg, pending, rst⟩ := effect.keeps_surroundings
  refine ⟨cfg, pending, rst, ?_⟩
  cases effect with
  | read off data instr state =>
    subst state
    exact ⟨fun notRead => absurd instr (notRead off data), fun drawn => absurd rfl drawn⟩
  | store off data instr notCmd state =>
    subst state
    exact ⟨fun _ => rfl, fun drawn => absurd rfl drawn⟩
  | command v written effect =>
    refine ⟨fun _ => effect.rdata_none, fun drawn => ?_⟩
    rw [runs_iff_mem written]
    exact effect.draws_kept_or_drawn.resolve_left drawn

/-- Settles O39: every instruction completes (`exec_completes`), and a transaction out of reset is one, with the rest of
the queue kept. -/
theorem everyTransactionCompletes : Obligations.EveryTransactionCompletes := by
  unfold Obligations.EveryTransactionCompletes
  refine ⟨exec_completes, fun s w rest released queue => ?_⟩
  obtain ⟨t, effect⟩ := exists_effect (decodeTxn w) { s with pending := rest }
  obtain ⟨-, pending, -⟩ := effect.keeps_surroundings
  refine ⟨t, ?_, pending⟩
  rw [step_transaction s w rest released queue]
  exact effect.exec_eq (decodeTxn_wellFormed w)

/-! ### What a command reads -/

/-- FRAME, LAST_CMD, STATUS and the computed CRCs depend on the code and the frame (R13). -/
theorem CommandEffect.same_check {v : Byte} {s s' t t' : State} (effect : CommandEffect v s t)
    (effect' : CommandEffect v s' t') (selects : v ∈ commandCodes) (sameFrame : s.block.frame = s'.block.frame) :
    t.block.frame = t'.block.frame ∧ t.block.lastCmd = t'.block.lastCmd ∧
    t.block.status = t'.block.status ∧ t.block.crc0 = t'.block.crc0 ∧ t.block.crc1 = t'.block.crc1 := by
  obtain clear | frame := (mem_commandCodes_iff v).mp selects
  · rw [effect.block_of_clear clear, effect'.block_of_clear clear]
    exact ⟨rfl, rfl, rfl, rfl, rfl⟩
  · rw [effect.block_of_frame frame, effect'.block_of_frame frame]
    simp only [checked, sameFrame, and_self]

/-- TEMP and HUM after a T/H command on a verified frame depend on the frame and HEATER_CLAMP, and under LEGACY for a
heater code on HUM and the draw (R13, R147). -/
theorem CommandEffect.same_th {v : Byte} {s s' t t' : State} (effect : CommandEffect v s t)
    (effect' : CommandEffect v s' t') (th : v ∈ normalCodes ++ heaterCodes)
    (sameFrame : s.block.frame = s'.block.frame) (sameCfg : s.cfg = s'.cfg)
    (sameDraw : v ∈ heaterCodes → s.cfg.heaterClamp = .legacy → s.block.hum = s'.block.hum ∧ s.draws = s'.draws)
    (verified : FrameVerifies s.block.frame) :
    t.block.temp = t'.block.temp ∧ t.block.hum = t'.block.hum := by
  have verified' : FrameVerifies s'.block.frame := sameFrame ▸ verified
  have clamped (code : v ∈ normalCodes ∨ v ∈ heaterCodes ∧ s.cfg.heaterClamp = .fixed) :
      t.block.temp = t'.block.temp ∧ t.block.hum = t'.block.hum := by
    rw [effect.block_of_clamped code verified, effect'.block_of_clamped (sameCfg ▸ code) verified']
    simp only [converted, sameFrame, and_self]
  obtain normal | heater := (mem_th_iff v).mp th
  · exact clamped (.inl normal)
  · cases setting : s.cfg.heaterClamp with
    | fixed => exact clamped (.inr ⟨heater, setting⟩)
    | legacy =>
      obtain ⟨sameHum, sameIndex⟩ := sameDraw heater setting
      rw [effect.block_of_drawn heater setting verified,
        effect'.block_of_drawn heater (sameCfg ▸ setting) verified']
      simp only [converted, sameFrame, sameHum, sameIndex, and_self]

/-- Settles O46: `same_check` for what every command writes, `same_th` for TEMP and HUM, and the frame for SN. -/
theorem commandsReadOnlyTheFrame : Obligations.CommandsReadOnlyTheFrame := by
  unfold Obligations.CommandsReadOnlyTheFrame
  intro i s s' t t' wellFormed ⟨v, selects, written⟩ sameFrame sameCfg sameDraw runs runs'
  simp only [runs_iff_mem written, List.mem_singleton] at sameDraw ⊢
  rw [exec_of_cmdWritten i v _ wellFormed written, execute_eq_next_iff] at runs runs'
  obtain ⟨frame, lastCmd, status, crc0, crc1⟩ := runs.same_check runs' selects sameFrame
  refine ⟨frame, lastCmd, status, crc0, crc1, fun th => ?_, fun readSn verified => ?_, fun clear => ?_⟩
  · exact runs.same_th runs' th sameFrame sameCfg sameDraw
  · rw [runs.block_of_readSn readSn verified, runs'.block_of_readSn readSn (sameFrame ▸ verified), sameFrame]
  · rw [runs.block_of_clear clear, runs'.block_of_clear clear]
    exact ⟨rfl, rfl, rfl⟩

/-! ### Repeating -/

/-- A code written again does the same again, but for a heater command under LEGACY (R59). -/
theorem CommandEffect.repeats {v : Byte} {s t : State} (effect : CommandEffect v s t)
    (fixed : v ∈ heaterCodes → s.cfg.heaterClamp = .fixed) : CommandEffect v t t := by
  cases effect with
  | illegal selectsNone state => subst state; exact .illegal selectsNone rfl
  | clear code state => subst state; exact .clear code rfl
  | failed frame fails state => subst state; exact .failed frame fails rfl
  | check code verified state => subst state; exact .check code verified rfl
  | readSn code verified state => subst state; exact .readSn code verified rfl
  | clamped code verified state => subst state; exact .clamped code verified rfl
  | drawn heater legacy verified state => nomatch legacy.symm.trans (fixed heater)

/-- Settles O47: a read returns the same byte, a write stores the same byte, and a code repeats. -/
theorem repeatingChangesNothing : Obligations.RepeatingChangesNothing := by
  unfold Obligations.RepeatingChangesNothing
  intro i s t wellFormed fixed runs
  rw [exec_eq_next_iff _ _ _ wellFormed] at runs ⊢
  cases runs with
  | read off data instr state =>
    subst state
    exact .read off data instr rfl
  | store off data instr notCmd state =>
    have stored_again : busWrite off data (busWrite off data s) = busWrite off data s := by
      simp only [busWrite, writeFrame_writeFrame]
    subst state
    exact .store off data instr notCmd stored_again.symm
  | command v written effect =>
    rw [runs_iff_mem written] at fixed
    exact .command v written (effect.repeats fixed)

/-! ### The base address and the queue -/

/-- The same state with the window at another base address and other requests waiting. -/
def elsewhere (base : Nat) (pending : List Request) (s : State) : State :=
  { s with cfg := { s.cfg with base := base }, pending := pending }

/-- The effect of a code reads neither the base address nor the queue. -/
theorem CommandEffect.at_elsewhere {v : Byte} {s t : State} (effect : CommandEffect v s t) (base : Nat)
    (pending : List Request) : CommandEffect v (elsewhere base pending s) (elsewhere base pending t) := by
  cases effect with
  | illegal selectsNone state => subst state; exact .illegal selectsNone rfl
  | clear code state => subst state; exact .clear code rfl
  | failed frame fails state => subst state; exact .failed frame fails rfl
  | check code verified state => subst state; exact .check code verified rfl
  | readSn code verified state => subst state; exact .readSn code verified rfl
  | clamped code verified state => subst state; exact .clamped code verified rfl
  | drawn heater legacy verified state => subst state; exact .drawn heater legacy verified rfl

/-- No effect reads the base address or the queue. -/
theorem Effect.at_elsewhere {i : Instr} {s t : State} (effect : Effect i s t) (base : Nat) (pending : List Request) :
    Effect i (elsewhere base pending s) (elsewhere base pending t) := by
  cases effect with
  | read off data instr state => subst state; exact .read off data instr rfl
  | store off data instr notCmd state => subst state; exact .store off data instr notCmd rfl
  | command v written effect => exact .command v written (effect.at_elsewhere base pending)

theorem Effect.at_base {i : Instr} {s t : State} (effect : Effect i s t) (base : Nat) :
    Effect i (withBase base s) (withBase base t) := by
  obtain ⟨-, pending, -⟩ := effect.keeps_surroundings
  have moved : elsewhere base s.pending t = withBase base t := by
    rw [← pending]
    rfl
  exact moved ▸ effect.at_elsewhere base s.pending

theorem Effect.at_queue {i : Instr} {s t : State} (effect : Effect i s t) (pending : List Request) :
    Effect i { s with pending := pending } { t with pending := pending } := by
  obtain ⟨cfg, -, -⟩ := effect.keeps_surroundings
  have waits : elsewhere s.cfg.base pending t = { t with pending := pending } := by
    rw [← cfg]
    rfl
  exact waits ▸ effect.at_elsewhere s.cfg.base pending

/-- Serving a request is the same at another base address (R9). -/
theorem serve_withBase (r : Request) (s : State) (base : Nat) :
    serve r (withBase base s) = outcomeWithBase base (serve r s) := by
  cases r with
  | resetLine level => cases level <;> rfl
  | access bytes word =>
    cases level : s.rst with
    | true =>
      rw [serve_access_during_reset s bytes word level]
      exact serve_access_during_reset (withBase base s) bytes word level
    | false =>
      by_cases one : bytes = 1
      · subst one
        obtain ⟨t, effect⟩ := exists_effect (decodeTxn word) s
        have wellFormed := decodeTxn_wellFormed word
        rw [serve_transaction s word level, serve_transaction (withBase base s) word level,
          effect.exec_eq wellFormed, (effect.at_base base).exec_eq wellFormed]
        rfl
      · rw [serve_access_wide s bytes word level one]
        exact serve_access_wide (withBase base s) bytes word level one

/-- Settles O48: an idle step and each request's service are the same at another base address. -/
theorem baseAddressIsNeverRead : Obligations.BaseAddressIsNeverRead := by
  unfold Obligations.BaseAddressIsNeverRead
  intro s base
  cases queue : s.pending with
  | nil => rw [step_idle s queue, step_idle (withBase base s) queue]; rfl
  | cons r rest =>
    rw [step_request s r rest queue, step_request (withBase base s) r rest queue]
    exact serve_withBase r { s with pending := rest } base

end Sys2Proof.Machine
end

section
/-! The invariants that every step keeps: STATUS, its agreement with LAST_CMD, the ranges of TEMP and HUM, and the
holding of reset (spec R26, R155, R239). -/

namespace Sys2Proof.Machine

open Sys2Proof.Safety

/-- What does not depend on the queue or the reset input, holds after Reset(), and is kept by every instruction's
effect is kept by every step. -/
theorem step_keeps (P : State → Prop)
    (bus : ∀ s pending rst, P s → P { s with pending := pending, rst := rst })
    (reset : ∀ s, P (resetAction s))
    (instr : ∀ i s t, Effect i s t → P s → P t)
    (s t : State) (holds : P s) (steps : step s = .next t) : P t := by
  obtain ⟨-, rfl⟩ | ⟨rest, -, rfl⟩ | ⟨rest, -, rfl⟩ | ⟨w, rest, -, released, runs⟩ :=
    step_cases s t steps
  · exact holds
  · exact bus _ _ true (reset { s with pending := rest })
  · exact bus s rest false holds
  · exact instr (decodeTxn w) _ t ((exec_eq_next_iff _ _ _ (decodeTxn_wellFormed w)).mp runs) (bus s rest s.rst holds)

/-! ### STATUS -/

/-- Every outcome is one of the six values (R26). -/
theorem commandStatus_legal (v : Byte) (f : Frame) :
    commandStatus v f ∈ ([0x00, 0x01, 0x02, 0x04, 0x06, 0x08] : List Byte) := by
  have outcomes : ∀ st ∈ ([0x01, 0x02, 0x04, 0x06] : List Byte),
      st ∈ ([0x00, 0x01, 0x02, 0x04, 0x06, 0x08] : List Byte) := by decide
  unfold commandStatus
  split
  · exact outcomes _ (frameOutcome_mem f)
  · split <;> decide

theorem Effect.keeps_statusLegal {i : Instr} {s t : State} (effect : Effect i s t) (legal : StatusLegal s.block) :
    StatusLegal t.block := by
  obtain ⟨-, frameOnly⟩ | ⟨v, -, effect⟩ := effect.frame_only_or_command
  · rw [frameOnly]
    exact legal
  · rw [StatusLegal, effect.status_eq]
    exact commandStatus_legal v s.block.frame

/-- Settles O50: instructions that write no code keep STATUS, and each code leaves a legal one. -/
theorem stepKeepsStatusLegal : Obligations.StepKeepsStatusLegal := by
  unfold Obligations.StepKeepsStatusLegal
  exact step_keeps (fun s => StatusLegal s.block) (fun _ _ _ legal => legal) (fun _ => List.mem_cons_self)
    fun _ _ _ effect => effect.keeps_statusLegal

/-! ### STATUS and LAST_CMD -/

/-- The agreement does not depend on FRAME. -/
theorem outcomeAgrees_with_frame {b : Block} (agrees : OutcomeAgrees b) (f : Frame) :
    OutcomeAgrees { b with frame := f } :=
  ⟨agrees.legal, agrees.idle, agrees.frame, agrees.illegal⟩

/-- STATUS 0x00 agrees with no command or CLEAR, and no result held. -/
theorem outcomeAgrees_of_idle (b : Block) (idle : b.status = 0x00)
    (cleared : (b.lastCmd = 0x00 ∨ b.lastCmd = 0x02) ∧
      b.temp = 0 ∧ b.hum = 0 ∧ b.sn = 0 ∧ b.crc0 = 0 ∧ b.crc1 = 0) : OutcomeAgrees b where
  legal := by rw [StatusLegal, idle]; decide
  idle _ := cleared
  frame outcome := by rw [idle] at outcome; exact absurd outcome (by decide)
  illegal error := absurd (idle.symm.trans error) (by decide)

/-- Reset's registers agree, also with CLEAR's code in LAST_CMD. -/
theorem outcomeAgrees_reset_with (code : Byte) (idleCode : code = 0x00 ∨ code = 0x02) :
    OutcomeAgrees { Block.reset with lastCmd := code } :=
  outcomeAgrees_of_idle _ rfl ⟨idleCode, rfl, rfl, rfl, rfl, rfl⟩

/-- A frame command's outcome agrees with its code in LAST_CMD. -/
theorem outcomeAgrees_of_frame (b : Block) (frame : b.lastCmd ∈ frameCodes)
    (outcome : b.status ∈ ([0x01, 0x02, 0x04, 0x06] : List Byte)) : OutcomeAgrees b := by
  have classes : ∀ st ∈ ([0x01, 0x02, 0x04, 0x06] : List Byte),
      st ∈ ([0x00, 0x01, 0x02, 0x04, 0x06, 0x08] : List Byte) ∧ st ≠ 0x00 ∧ st ≠ 0x08 := by decide
  obtain ⟨legal, notIdle, notError⟩ := classes b.status outcome
  exact ⟨legal, fun idle => absurd idle notIdle, fun _ => frame, fun error => absurd error notError⟩

/-- CMD_ERR agrees with a code that selects no command. -/
theorem outcomeAgrees_of_illegal (b : Block) (error : b.status = 0x08) (selectsNone : b.lastCmd ∉ commandCodes) :
    OutcomeAgrees b where
  legal := by rw [StatusLegal, error]; decide
  idle idle := absurd (error.symm.trans idle) (by decide)
  frame outcome := by rw [error] at outcome; exact absurd outcome (by decide)
  illegal _ := selectsNone

/-- Whatever stood before, a code leaves STATUS and LAST_CMD agreeing. -/
theorem CommandEffect.outcomeAgrees {v : Byte} {s t : State} (effect : CommandEffect v s t) :
    OutcomeAgrees t.block := by
  by_cases selects : v ∈ commandCodes
  · obtain clear | frame := (mem_commandCodes_iff v).mp selects
    · rw [effect.block_of_clear clear]
      exact outcomeAgrees_reset_with v (.inr clear)
    · refine outcomeAgrees_of_frame t.block (effect.lastCmd_eq.symm ▸ frame) ?_
      rw [effect.status_eq, commandStatus, if_pos frame]
      exact frameOutcome_mem s.block.frame
  · rw [effect.block_of_none selects]
    exact outcomeAgrees_of_illegal _ rfl selects

theorem Effect.keeps_outcomeAgrees {i : Instr} {s t : State} (effect : Effect i s t)
    (agrees : OutcomeAgrees s.block) : OutcomeAgrees t.block := by
  obtain ⟨-, frameOnly⟩ | ⟨v, -, effect⟩ := effect.frame_only_or_command
  · rw [frameOnly]
    exact outcomeAgrees_with_frame agrees _
  · exact effect.outcomeAgrees

/-- Settles O51: Reset() meets the agreement, a code establishes it, and everything else keeps the registers it speaks
of. -/
theorem stepKeepsOutcomeAgreement : Obligations.StepKeepsOutcomeAgreement := by
  unfold Obligations.StepKeepsOutcomeAgreement
  exact step_keeps (fun s => OutcomeAgrees s.block) (fun _ _ _ agrees => agrees)
    (fun _ => outcomeAgrees_reset_with 0x00 (.inl rfl)) fun _ _ _ effect => effect.keeps_outcomeAgrees

/-! ### The ranges of TEMP and HUM -/

/-- The ranges speak of TEMP, HUM and the configuration alone. -/
theorem inRange_of_same {s t : State} (inRange : InRange s) (temp : t.block.temp = s.block.temp)
    (hum : t.block.hum = s.block.hum) (cfg : t.cfg = s.cfg) : InRange t := by
  obtain ⟨tempLow, tempHigh, humFixed, humLow, humHigh⟩ := inRange
  rw [← temp] at tempLow tempHigh
  rw [← hum] at humFixed humLow humHigh
  rw [← cfg] at humFixed
  exact ⟨tempLow, tempHigh, humFixed, humLow, humHigh⟩

/-- Zero is in range under both settings. -/
theorem inRange_of_zero (s : State) (temp : s.block.temp = 0) (hum : s.block.hum = 0) : InRange s := by
  constructor <;> simp [temp, hum]

/-- A converted TEMP is in range; what is left to show speaks of HUM (R155). -/
theorem inRange_of_convT (s : State) (raw : Half) (temp : s.block.temp = s16 (convT raw))
    (humFixed : s.cfg.heaterClamp = .fixed → s.block.hum.toNat ≤ 1000)
    (hum : -60 ≤ s.block.hum.toInt ∧ s.block.hum.toInt ≤ 1189) : InRange s := by
  have range := convT_range raw
  rw [← s16_convT_toInt, ← temp] at range
  exact ⟨range.1, range.2, humFixed, hum.1, hum.2⟩

/-- A clamped HUM is in the range of either setting (R146, R155). -/
theorem clampedHum_range (raw : Half) :
    (s16 (convH raw)).toNat ≤ 1000 ∧ -60 ≤ (s16 (convH raw)).toInt ∧ (s16 (convH raw)).toInt ≤ 1189 := by
  have range := convH_range raw
  have unsigned := s16_convH_toNat raw
  have signed := s16_convH_toInt raw
  omega

/-- Every draw of LEGACY keeps HUM in the signed range, if the earlier HUM was in it (R147, R155). -/
theorem legacyHum_range (raw old : Half) (keepOld : Bool) (oldRange : -60 ≤ old.toInt ∧ old.toInt ≤ 1189) :
    -60 ≤ (legacyHum raw old keepOld).toInt ∧ (legacyHum raw old keepOld).toInt ≤ 1189 := by
  have linear : -60 ≤ (s16 (humLin raw)).toInt ∧ (s16 (humLin raw)).toInt ≤ 1189 := by
    rw [s16_humLin_toInt]
    exact humLin_range raw
  by_cases inRange : 0 ≤ humLin raw ∧ humLin raw ≤ 1000
  · rw [legacyHum_in_range raw old keepOld inRange.1 inRange.2]
    exact linear
  · rw [legacyHum_out_of_range raw old keepOld inRange]
    cases keepOld with
    | true => exact oldRange
    | false => exact linear

theorem CommandEffect.keeps_inRange {v : Byte} {s t : State} (effect : CommandEffect v s t) (inRange : InRange s) :
    InRange t := by
  cases effect with
  | illegal _ state | failed _ _ state | check _ _ state | readSn _ _ state =>
    subst state
    exact inRange_of_same inRange rfl rfl rfl
  | clear code state =>
    subst state
    exact inRange_of_zero _ rfl rfl
  | clamped code verified state =>
    subst state
    obtain ⟨unsigned, signed⟩ := clampedHum_range (rawH s.block.frame)
    exact inRange_of_convT _ (rawT s.block.frame) rfl (fun _ => unsigned) signed
  | drawn heater legacy verified state =>
    subst state
    exact inRange_of_convT _ (rawT s.block.frame) rfl (fun fixed => nomatch legacy.symm.trans fixed)
      (legacyHum_range _ _ _ ⟨inRange.humLow, inRange.humHigh⟩)

theorem Effect.keeps_inRange {i : Instr} {s t : State} (effect : Effect i s t) (inRange : InRange s) : InRange t := by
  cases effect with
  | read _ _ _ state | store _ _ _ _ state =>
    subst state
    exact inRange_of_same inRange rfl rfl rfl
  | command v written effect => exact effect.keeps_inRange inRange

/-- Settles O52: Reset() and CLEAR leave zeros, conversions are in range, and everything else keeps TEMP and HUM. -/
theorem stepKeepsResultsInRange : Obligations.StepKeepsResultsInRange := by
  unfold Obligations.StepKeepsResultsInRange
  exact step_keeps InRange (fun _ _ _ inRange => inRange_of_same inRange rfl rfl rfl)
    (fun s => inRange_of_zero (resetAction s) rfl rfl) fun _ _ _ effect => effect.keeps_inRange

/-! ### The holding of reset -/

/-- Settles O53: while reset is asserted a step idles or serves the reset input again; transactions run only with it
released, and keep it so. -/
theorem stepKeepsResetHolding : Obligations.StepKeepsResetHolding := by
  unfold Obligations.StepKeepsResetHolding
  intro s t holds steps
  obtain ⟨-, rfl⟩ | ⟨rest, -, rfl⟩ | ⟨rest, -, rfl⟩ | ⟨w, rest, -, released, runs⟩ :=
    step_cases s t steps
  · exact holds
  · exact fun _ => rfl
  · exact fun asserted => nomatch asserted
  · have effect := (exec_eq_next_iff _ _ _ (decodeTxn_wellFormed w)).mp runs
    obtain ⟨-, -, rst⟩ := effect.keeps_surroundings
    exact fun asserted => nomatch released.symm.trans (rst.symm.trans asserted)

/-! ### Right after reset -/

/-- Settles O54: the registers are zero and the reset input is released. -/
theorem resetMeetsTheInvariants : Obligations.ResetMeetsTheInvariants := by
  unfold Obligations.ResetMeetsTheInvariants
  intro cfg
  exact ⟨List.mem_cons_self, outcomeAgrees_reset_with 0x00 (.inl rfl), inRange_of_zero _ rfl rfl,
    fun asserted => nomatch asserted⟩

end Sys2Proof.Machine
end

section
/-! Runs of the machine on queues of transactions, on the requests of a clock edge and of a script, and the platform
addresses of the window (spec R9, R57, R62, R83, R84, R239). -/

namespace Sys2Proof.Machine

open Sys2Proof.Safety

/-! ### Runs -/

/-- A run of any machine goes on from the state that its first step answers. -/
theorem run_succ_of_next (M : Host.Core) (k : Nat) (s t : M.State) (steps : M.step s = .next t) :
    M.run (k + 1) s = M.run k t := by
  rw [Host.Core.run, steps]

/-- A run of one step is the step, whatever its outcome. -/
theorem run_one_eq_step (M : Host.Core) (s : M.State) : M.run 1 s = M.step s := by
  rw [Host.Core.run]
  cases M.step s <;> rfl

theorem run_succ_of_step (k : Nat) (s t : State) (steps : step s = .next t) :
    Host.Core.run core (k + 1) s = Host.Core.run core k t :=
  run_succ_of_next core k s t steps

theorem run_one (s : State) : Host.Core.run core 1 s = step s := run_one_eq_step core s

/-! ### A queue of transactions -/

/-- Out of reset the oldest transaction of a queue does what it does with the rest alone waiting. -/
theorem step_afterWord (s : State) (w : TxnWord) (waiting rest : List Request) (released : s.rst = false)
    (queue : s.pending = .access 1 w :: waiting) :
    ∃ t, step s = .next t ∧ t.rst = false ∧ t.pending = waiting ∧
      { t with pending := rest } = afterWord { s with pending := rest } w := by
  obtain ⟨t, effect⟩ := exists_effect (decodeTxn w) { s with pending := waiting }
  obtain ⟨-, pending, rst⟩ := effect.keeps_surroundings
  have wellFormed := decodeTxn_wellFormed w
  have alone : exec (decodeTxn w) { s with pending := rest } = .next { t with pending := rest } :=
    (effect.at_queue rest).exec_eq wellFormed
  refine ⟨t, ?_, rst.trans released, pending, ?_⟩
  · rw [step_transaction s w waiting released queue, effect.exec_eq wellFormed]
  · rw [afterWord, alone]

/-- Settles O49: by induction over the queue, one transaction at a time (`step_afterWord`). -/
theorem transactionsTakeEffectInOrder : Obligations.TransactionsTakeEffectInOrder := by
  unfold Obligations.TransactionsTakeEffectInOrder
  intro ws
  induction ws with
  | nil =>
    intro s rest _ queue
    have unchanged : s = { s with pending := rest } := by
      have nothing_else : s.pending = rest := queue
      rw [← nothing_else]
    exact congrArg Host.Outcome.next unchanged
  | cons w ws ih =>
    intro s rest released queue
    obtain ⟨t, steps, rst, pending, after⟩ := step_afterWord s w (transactions ws ++ rest) rest released queue
    rw [List.length_cons, run_succ_of_step _ s t steps, ih t rest rst pending, after]
    rfl

/-! ### One clock edge -/

/-- Settles O57: the level of rst is the first request; where sel is 1 the carried transaction is the second, refused
during reset and run out of it. -/
theorem clockEdgeIsTheTransaction : Obligations.ClockEdgeIsTheTransaction := by
  unfold Obligations.ClockEdgeIsTheTransaction
  rintro ⟨rst, sel, we, addr, wdata⟩ s queue
  have nothing_else : { s with pending := [] } = s := by rw [← queue]
  cases rst with
  | true =>
    cases sel with
    | true =>
      change Host.Core.run core 2 _ = .refused .transactionDuringReset
      rw [run_succ_of_step 1 _ _ (step_assert _ [.access 1 (txnWord we addr wdata)] rfl), run_one,
        step_request _ _ [] rfl, serve_access_during_reset _ _ _ rfl]
      rfl
    | false =>
      change Host.Core.run core 1 _ = .next { resetAction s with rst := true }
      rw [run_one, step_assert _ [] rfl, ← nothing_else]
      rfl
  | false =>
    cases sel with
    | true =>
      change Host.Core.run core 2 _ = if we then execWr addr wdata _ else execRd addr wdata _
      rw [run_succ_of_step 1 _ _ (step_release _ [.access 1 (txnWord we addr wdata)] rfl), run_one,
        step_transaction _ _ [] rfl rfl, decodeTxn_txnWord, ← nothing_else]
      cases we <;> rfl
    | false =>
      change Host.Core.run core 1 _ = .next { s with rst := false }
      rw [run_one, step_release _ [] rfl, ← nothing_else]
      rfl

/-! ### Scripts -/

/-- Settles O56: the two requests of RESET are performed one after the other. -/
theorem scriptResetPerformsReset : Obligations.ScriptResetPerformsReset := by
  unfold Obligations.ScriptResetPerformsReset
  intro s queue
  have nothing_else : { s with pending := [] } = s := by rw [← queue]
  change Host.Core.run core 2 _ = _
  rw [run_succ_of_step 1 _ _ (step_assert _ [.resetLine false] rfl), run_one, step_release _ [] rfl, ← nothing_else]
  rfl

/-- A word is its number in fourteen bits (R70). -/
theorem txnWord_eq_ofNat (write : Bool) (off : Offset) (data : Byte) :
    txnWord write off data = BitVec.ofNat 14 (txnNumber write off data) := by
  rw [← txnWord_toNat, BitVec.ofNat_toNat, BitVec.setWidth_eq]

/-- The number of a read written with DATA 0x00 is its offset moved up (R83). -/
theorem txnNumber_read (off : Offset) : txnNumber false off 0x00 = off.toNat <<< 8 := by
  simp [txnNumber]

/-- Settles O55: CMD is the write of the mnemonic's code, the other expansions are lists written out, and the words
are numbers by `txnWord_eq_ofNat`. -/
theorem pseudoInstructionsExpand : Obligations.PseudoInstructionsExpand := by
  unfold Obligations.PseudoInstructionsExpand
  refine ⟨fun i v code => ?_, fun _ _ _ _ _ _ => rfl, rfl, rfl, rfl, fun off v => ⟨?_, ?_, rfl⟩⟩
  · have writes : Statement.requests (.cmd i) = [writeRequest 0x06 v] := by
      rw [Statement.requests, code]
      rfl
    exact ⟨writes, txnWord true 0x06 v, writes, decode_txnWord true 0x06 v⟩
  · rw [Statement.requests, writeRequest, txnWord_eq_ofNat]
    rfl
  · rw [Statement.requests, readRequest, txnWord_eq_ofNat, txnNumber_read]

/-! ### Platform addresses -/

/-- Settles O58: in the window the offset is the address less the base, which fits five bits. -/
theorem windowAddressesAreThirtyTwo : Obligations.WindowAddressesAreThirtyTwo := by
  unfold Obligations.WindowAddressesAreThirtyTwo
  intro cfg addr off
  have fits := off.isLt
  unfold windowOffset windowAddress
  by_cases inside : cfg.base ≤ addr ∧ addr < cfg.base + 32
  · rw [if_pos inside, Option.some_inj, ← BitVec.toNat_inj, BitVec.toNat_ofNat]
    omega
  · rw [if_neg inside]
    exact iff_of_false nofun (by omega)

end Sys2Proof.Machine
end
